-- ==== Sys2Proof/Word.lean ====
section
/-! DEFINITION. The word types of the WFB (00_scope.md R9, R10; 10_state.md R16, R17, R23, R25). -/

namespace Sys2Proof

/-- 8 bits; bit 7 is the most significant (R9). -/
abbrev Byte := BitVec 8

/-- A 16-bit configuration register (R19). -/
abbrev Half := BitVec 16

/-- A command word, an operand `A0` or `A1`, or STATUS (R6, R16, R21). -/
abbrev Word := BitVec 32

/-- A result register `R0` to `R3` (R17). -/
abbrev Dword := BitVec 64

/-- A sequence of bits; element 0 is the first transmitted (R10, R23). -/
abbrev Bits := List Bool

/-- A packet: an opaque sequence of bytes (R13, R25). -/
abbrev Packet := List Byte

/-- A burst: a sequence of packets, in transmission order (R13, R39). -/
abbrev Burst := List Packet

/-- An FEC block as it sits in the block queue: its bits only (R23, R69). -/
abbrev Block := Bits

end Sys2Proof
end

