-- ==== Sys2Proof/Syntax.lean ====
section
/-! DEFINITION. The WFB's commands: one constructor of `Instr` per row of spec/opcode_table.json, and the names its
fields select (30_encoding.md R56, R58; 10_state.md R20). -/

namespace Sys2Proof

/-- The eight values of the `MCS` field, under the names of 30_encoding.md R58. -/
inductive McsCode where
  | bpsk_1_2
  | qpsk_1_2
  | qpsk_3_4
  | qam16_1_2
  | qam16_3_4
  | qam64_2_3
  | qam64_3_4
  /-- Code 7: well encoded, but selects no row (R58, R84). -/
  | code7
deriving DecidableEq, Repr

/-- The registers of the register index map (10_state.md R20). -/
inductive Reg where
  | bw
  | fft
  | gnum
  | gden
  | frameCode
  | status
  | bqLevel
  | sfNum
  | sfDen
  | fsHz
  | spacingHz
  | tbTicks
  | tgTicks
  | tsTicks
  | psTicks
  | psPerSym
  | frameTicks
  | symPerFrame
deriving DecidableEq, Repr

/-- The sixteen mnemonics of the opcode map (30_encoding.md R56). -/
inductive Mnemonic where
  | cfgWr
  | cfgRd
  | mcsInfo
  | blockPlan
  | serialize
  | deserialize
  | segment
  | reassemble
  | bqPush
  | bqClear
  | timingInit
  | dataRate
  | blockTime
  | burstTime
  | nrSymbols
  | nrBytes
deriving DecidableEq, Repr

/-- A decoded command: its mnemonic with the one field it uses, if any. The operands `A0`, `A1` and `DIN` come with
the transaction, not with the word (R60). -/
inductive Instr where
  | cfgWr (reg : Reg)
  | cfgRd (reg : Reg)
  | mcsInfo (mcs : McsCode)
  | blockPlan (mcs : McsCode)
  | serialize
  | deserialize
  | segment
  | reassemble
  | bqPush
  | bqClear
  | timingInit
  | dataRate (mcs : McsCode)
  | blockTime (mcs : McsCode)
  | burstTime (mcs : McsCode)
  | nrSymbols (mcs : McsCode)
  | nrBytes (mcs : McsCode)
deriving DecidableEq, Repr

end Sys2Proof
end

