-- ==== Sys2Proof/WellFormed.lean ====
section
/-! DEFINITION. Which terms of `Instr` a command word can stand for. Field widths are in the types; the one check left
is 30_encoding.md R61 (e): CFG_WR may not name a read-only register. -/

namespace Sys2Proof

/-- The access column of 10_state.md R20: indices 0x00 to 0x04 are RW, every other assigned index is RO. -/
def Reg.isWritable : Reg → Bool
  | .bw => true
  | .fft => true
  | .gnum => true
  | .gden => true
  | .frameCode => true
  | .status => false
  | .bqLevel => false
  | .sfNum => false
  | .sfDen => false
  | .fsHz => false
  | .spacingHz => false
  | .tbTicks => false
  | .tgTicks => false
  | .tsTicks => false
  | .psTicks => false
  | .psPerSym => false
  | .frameTicks => false
  | .symPerFrame => false

/-- A command is well formed when some legal word encodes it (R61, R62). -/
def Instr.isWellFormed : Instr → Bool
  | .cfgWr reg => reg.isWritable
  | .cfgRd _ => true
  | .mcsInfo _ => true
  | .blockPlan _ => true
  | .serialize => true
  | .deserialize => true
  | .segment => true
  | .reassemble => true
  | .bqPush => true
  | .bqClear => true
  | .timingInit => true
  | .dataRate _ => true
  | .blockTime _ => true
  | .burstTime _ => true
  | .nrSymbols _ => true
  | .nrBytes _ => true

/-- `i` is well formed. -/
abbrev Instr.WellFormed (i : Instr) : Prop := i.isWellFormed = true

end Sys2Proof
end

