-- ==== Sys2Proof/Decode.lean ====
section
/-! DEFINITION. Decoding and encoding of command words: format C, the opcode map and the register index map
(30_encoding.md R53 to R63; 10_state.md R20). The decoder comes first, the encoder after it. -/

namespace Sys2Proof

/-! ### The tables both directions read -/

/-- The field class of an opcode (R55). -/
inductive FieldClass where
  /-- `MCS` used, `REG` must be 0. -/
  | m
  /-- `REG` used, `MCS` must be 0. -/
  | r
  /-- Both must be 0. -/
  | n
deriving DecidableEq, Repr

/-- The class column of R56. -/
def fieldClass : Mnemonic → FieldClass
  | .cfgWr => .r
  | .cfgRd => .r
  | .mcsInfo => .m
  | .blockPlan => .m
  | .serialize => .n
  | .deserialize => .n
  | .segment => .n
  | .reassemble => .n
  | .bqPush => .n
  | .bqClear => .n
  | .timingInit => .n
  | .dataRate => .m
  | .blockTime => .m
  | .burstTime => .m
  | .nrSymbols => .m
  | .nrBytes => .m

/-- The OPC column of R56, read as a decoder; every value not listed is unassigned. -/
def mnemonicOfOpc (opc : Byte) : Option Mnemonic :=
  match opc with
  | 0x01#8 => some .cfgWr
  | 0x02#8 => some .cfgRd
  | 0x10#8 => some .mcsInfo
  | 0x11#8 => some .blockPlan
  | 0x20#8 => some .serialize
  | 0x21#8 => some .deserialize
  | 0x30#8 => some .segment
  | 0x31#8 => some .reassemble
  | 0x32#8 => some .bqPush
  | 0x33#8 => some .bqClear
  | 0x40#8 => some .timingInit
  | 0x41#8 => some .dataRate
  | 0x42#8 => some .blockTime
  | 0x43#8 => some .burstTime
  | 0x44#8 => some .nrSymbols
  | 0x45#8 => some .nrBytes
  | _ => none

/-- The REG column of 10_state.md R20, read as a decoder; every index not listed is unassigned. -/
def regOfIndex (k : Byte) : Option Reg :=
  match k with
  | 0x00#8 => some .bw
  | 0x01#8 => some .fft
  | 0x02#8 => some .gnum
  | 0x03#8 => some .gden
  | 0x04#8 => some .frameCode
  | 0x10#8 => some .status
  | 0x11#8 => some .bqLevel
  | 0x20#8 => some .sfNum
  | 0x21#8 => some .sfDen
  | 0x22#8 => some .fsHz
  | 0x23#8 => some .spacingHz
  | 0x24#8 => some .tbTicks
  | 0x25#8 => some .tgTicks
  | 0x26#8 => some .tsTicks
  | 0x27#8 => some .psTicks
  | 0x28#8 => some .psPerSym
  | 0x29#8 => some .frameTicks
  | 0x2A#8 => some .symPerFrame
  | _ => none

/-- The MCS codes of R58. Every 3-bit value decodes, 7 too (R63). -/
def mcsOfBits (m : BitVec 3) : McsCode :=
  match m with
  | 0#3 => .bpsk_1_2
  | 1#3 => .qpsk_1_2
  | 2#3 => .qpsk_3_4
  | 3#3 => .qam16_1_2
  | 4#3 => .qam16_3_4
  | 5#3 => .qam64_2_3
  | 6#3 => .qam64_3_4
  | _ => .code7

/-- The command a mnemonic makes of the two fields; it drops a field its class does not use. -/
def instrOf (mn : Mnemonic) (mcs : McsCode) (reg : Reg) : Instr :=
  match mn with
  | .cfgWr => .cfgWr reg
  | .cfgRd => .cfgRd reg
  | .mcsInfo => .mcsInfo mcs
  | .blockPlan => .blockPlan mcs
  | .serialize => .serialize
  | .deserialize => .deserialize
  | .segment => .segment
  | .reassemble => .reassemble
  | .bqPush => .bqPush
  | .bqClear => .bqClear
  | .timingInit => .timingInit
  | .dataRate => .dataRate mcs
  | .blockTime => .blockTime mcs
  | .burstTime => .burstTime mcs
  | .nrSymbols => .nrSymbols mcs
  | .nrBytes => .nrBytes mcs

/-! ### The fields of format C (R54) -/

/-- `OPC`, bits [31:24]. -/
def opcField (w : Word) : Byte := w.extractLsb' 24 8

/-- `RSV0`, bits [23:19]. -/
def rsv0Field (w : Word) : BitVec 5 := w.extractLsb' 19 5

/-- `MCS`, bits [18:16]. -/
def mcsField (w : Word) : BitVec 3 := w.extractLsb' 16 3

/-- `RSV1`, bits [15:8]. -/
def rsv1Field (w : Word) : Byte := w.extractLsb' 8 8

/-- `REG`, bits [7:0]. -/
def regField (w : Word) : Byte := w.extractLsb' 0 8

/-! ### The decoder -/

/-- Why a command word is illegal: the cases (a) to (e) of R61. -/
inductive IllegalWord where
  /-- (a) `OPC` is unassigned. -/
  | unassignedOpc
  /-- (b) `RSV0` or `RSV1` is not 0. -/
  | reservedNotZero
  /-- (c) a field the opcode's class marks "must be 0" is not 0. -/
  | unusedFieldNotZero
  /-- (d) class R and `REG` is unassigned. -/
  | unassignedReg
  /-- (e) CFG_WR and `REG` names a read-only register. -/
  | readOnlyReg
deriving DecidableEq, Repr

/-- The decoder of R63, total on all 32-bit words, checks in its order. -/
def decode (w : Word) : Except IllegalWord Instr :=
  match mnemonicOfOpc (opcField w) with
  | none => .error .unassignedOpc
  | some mn =>
    if rsv0Field w ≠ 0 ∨ rsv1Field w ≠ 0 then .error .reservedNotZero
    else
      match fieldClass mn with
      | .m =>
        if regField w ≠ 0 then .error .unusedFieldNotZero
        else .ok (instrOf mn (mcsOfBits (mcsField w)) .bw)
      | .r =>
        if mcsField w ≠ 0 then .error .unusedFieldNotZero
        else
          match regOfIndex (regField w) with
          | none => .error .unassignedReg
          | some reg =>
            if mn = .cfgWr ∧ reg.isWritable = false then .error .readOnlyReg
            else .ok (instrOf mn .bpsk_1_2 reg)
      | .n =>
        if mcsField w ≠ 0 ∨ regField w ≠ 0 then .error .unusedFieldNotZero
        else .ok (instrOf mn .bpsk_1_2 .bw)

/-- The command the decoder reads from a table row's bits. A command is one 32-bit word, presented whole, so it has no
byte order (R42, R53): the row's bit 0 is bit 0 of the word. -/
def decodeTableWord (nbits w : Nat) : Option Instr :=
  (decode (BitVec.ofNat 32 (w % 2 ^ nbits))).toOption

/-! ### The encoder -/

/-- The OPC column of R56. -/
def opcOf : Mnemonic → Byte
  | .cfgWr => 0x01
  | .cfgRd => 0x02
  | .mcsInfo => 0x10
  | .blockPlan => 0x11
  | .serialize => 0x20
  | .deserialize => 0x21
  | .segment => 0x30
  | .reassemble => 0x31
  | .bqPush => 0x32
  | .bqClear => 0x33
  | .timingInit => 0x40
  | .dataRate => 0x41
  | .blockTime => 0x42
  | .burstTime => 0x43
  | .nrSymbols => 0x44
  | .nrBytes => 0x45

/-- The REG column of 10_state.md R20. -/
def regIndex : Reg → Byte
  | .bw => 0x00
  | .fft => 0x01
  | .gnum => 0x02
  | .gden => 0x03
  | .frameCode => 0x04
  | .status => 0x10
  | .bqLevel => 0x11
  | .sfNum => 0x20
  | .sfDen => 0x21
  | .fsHz => 0x22
  | .spacingHz => 0x23
  | .tbTicks => 0x24
  | .tgTicks => 0x25
  | .tsTicks => 0x26
  | .psTicks => 0x27
  | .psPerSym => 0x28
  | .frameTicks => 0x29
  | .symPerFrame => 0x2A

/-- The MCS column of R58. -/
def mcsBits : McsCode → BitVec 3
  | .bpsk_1_2 => 0
  | .qpsk_1_2 => 1
  | .qpsk_3_4 => 2
  | .qam16_1_2 => 3
  | .qam16_3_4 => 4
  | .qam64_2_3 => 5
  | .qam64_3_4 => 6
  | .code7 => 7

/-- A word of format C with both reserved fields 0 (R54). -/
def formatC (opc : Byte) (mcs : BitVec 3) (reg : Byte) : Word :=
  opc ++ (0#5) ++ mcs ++ (0#8) ++ reg

/-- The command word of a command (R57). -/
def encode : Instr → Word
  | .cfgWr reg => formatC (opcOf .cfgWr) 0 (regIndex reg)
  | .cfgRd reg => formatC (opcOf .cfgRd) 0 (regIndex reg)
  | .mcsInfo mcs => formatC (opcOf .mcsInfo) (mcsBits mcs) 0
  | .blockPlan mcs => formatC (opcOf .blockPlan) (mcsBits mcs) 0
  | .serialize => formatC (opcOf .serialize) 0 0
  | .deserialize => formatC (opcOf .deserialize) 0 0
  | .segment => formatC (opcOf .segment) 0 0
  | .reassemble => formatC (opcOf .reassemble) 0 0
  | .bqPush => formatC (opcOf .bqPush) 0 0
  | .bqClear => formatC (opcOf .bqClear) 0 0
  | .timingInit => formatC (opcOf .timingInit) 0 0
  | .dataRate mcs => formatC (opcOf .dataRate) (mcsBits mcs) 0
  | .blockTime mcs => formatC (opcOf .blockTime) (mcsBits mcs) 0
  | .burstTime mcs => formatC (opcOf .burstTime) (mcsBits mcs) 0
  | .nrSymbols mcs => formatC (opcOf .nrSymbols) (mcsBits mcs) 0
  | .nrBytes mcs => formatC (opcOf .nrBytes) (mcsBits mcs) 0

/-- The mnemonic of a command. -/
def mnemonicOf : Instr → Mnemonic
  | .cfgWr _ => .cfgWr
  | .cfgRd _ => .cfgRd
  | .mcsInfo _ => .mcsInfo
  | .blockPlan _ => .blockPlan
  | .serialize => .serialize
  | .deserialize => .deserialize
  | .segment => .segment
  | .reassemble => .reassemble
  | .bqPush => .bqPush
  | .bqClear => .bqClear
  | .timingInit => .timingInit
  | .dataRate _ => .dataRate
  | .blockTime _ => .blockTime
  | .burstTime _ => .burstTime
  | .nrSymbols _ => .nrSymbols
  | .nrBytes _ => .nrBytes

/-- The mask column of R55. -/
def classMask : FieldClass → Word
  | .m => 0xFFF8FFFF
  | .r => 0xFFFFFF00
  | .n => 0xFFFFFFFF

/-- A word matches an opcode when `(CMD & mask) = match`, with `match = OPC << 24` (R55). -/
def matchesOpcode (mn : Mnemonic) (w : Word) : Bool :=
  w &&& classMask (fieldClass mn) == (opcOf mn).zeroExtend 32 <<< 24

end Sys2Proof
end

