-- ==== Sys2Proof/Machine/State.lean ====
section
/-! DEFINITION. The state of the WFB (10_state.md R15 to R30), the transaction port the host drives it by (00_scope.md
R6), and the state after reset (R30; 70_reset_and_hazards.md R163). -/

namespace Sys2Proof.Machine

/-- The configuration registers `CFG` (R19), and the timing snapshot `TCFG` (R22). -/
structure Cfg where
  /-- Channel bandwidth in Hz. -/
  bw : Word
  /-- FFT size. -/
  fft : Half
  /-- Numerator of the cyclic-prefix ratio G. -/
  gnum : Half
  /-- Denominator of G. -/
  gden : Half
  /-- Frame-duration code. -/
  frameCode : Byte
deriving DecidableEq, Repr

/-- The result registers `R0` to `R3` (R17). -/
structure Results where
  r0 : Dword
  r1 : Dword
  r2 : Dword
  r3 : Dword
deriving DecidableEq, Repr

/-- A typed data payload, `DIN` or `DOUT` (R25). -/
inductive Payload where
  | none
  | bits (s : Bits)
  | burst (b : Burst)
deriving DecidableEq, Repr

/-- One command transaction `(CMD, A0, A1, DIN)` (00_scope.md R6). -/
structure Transaction where
  cmd : Word
  a0 : Word
  a1 : Word
  din : Payload
deriving DecidableEq, Repr

/-- What the host can do to the WFB: present a transaction (R6), or reset it between two transactions (R163). -/
inductive HostEvent where
  | present (t : Transaction)
  | reset
deriving DecidableEq, Repr

/-- The state. The fields from `cfg` to `bq` are exactly the tuple of R15. The fields after them are the model's own:
the transaction port, which the spec counts as the inputs and outputs of one step (log entries 1 and 3). -/
structure State where
  /-- `CFG` (R19). -/
  cfg : Cfg
  /-- `TV`, timing valid (R22). -/
  tv : Bool
  /-- `TCFG`, the timing snapshot (R22). -/
  tcfg : Cfg
  /-- `R0` to `R3` (R17). -/
  r : Results
  /-- `STATUS.HALTED` (R21). -/
  halted : Bool
  /-- `STATUS.CERR` (R21). -/
  cerr : Byte
  /-- `STATUS.FCAUSE` (R21). -/
  fcause : Byte
  /-- `BQ`, head first (R24). -/
  bq : List Block
  /-- `A0` of the transaction being executed (R16); 0 between transactions. -/
  a0 : Word
  /-- `A1` of the transaction being executed (R16); 0 between transactions. -/
  a1 : Word
  /-- `DIN` of the transaction being executed (R25); `none` between transactions. -/
  din : Payload
  /-- `DOUT` of the latest response (R25). -/
  dout : Payload
  /-- What the host has presented and the WFB has not yet taken, in presentation order (R18, R179). -/
  inbox : List HostEvent
  /-- The number of transactions completed, the WFB's progress (R18). -/
  completed : Nat
deriving DecidableEq, Repr

/-- Why the machine stops with a fault: never. The spec's failures, Fatal and CErr, are next states with a response
(60_exceptions.md R143 to R152), and the WFB takes no address that could be absent (R28, R48), so nothing raises a
fault of the model. Safe: no outcome of the hardware is cut off. -/
inductive Fault : Type
deriving DecidableEq, Repr

/-- Why a step is refused. -/
inductive Refusal where
  /-- Raised by an arm of `exec` whose command has no meaning yet; no arm is left that raises it. Safe: the machine
  stops where the hardware goes on. -/
  | notModelled (mnemonic : String)
deriving DecidableEq, Repr

/-- Every configuration field at its reset value (R30). -/
def Cfg.zero : Cfg := { bw := 0, fft := 0, gnum := 0, gden := 0, frameCode := 0 }

/-- All four result registers 0 (R17, R30, R152). -/
def Results.zero : Results := { r0 := 0, r1 := 0, r2 := 0, r3 := 0 }

/-- The state after reset (R30, R163). The spec gives every value but those of the port, which are the model's own
(DESIGN CHOICE, log entries 1 and 3): nothing presented, nothing being executed, no response yet. -/
def State.reset : State where
  cfg := Cfg.zero
  tv := false
  tcfg := Cfg.zero
  r := Results.zero
  halted := false
  cerr := 0
  fcause := 0
  bq := []
  a0 := 0
  a1 := 0
  din := .none
  dout := .none
  inbox := []
  completed := 0

end Sys2Proof.Machine
end

