-- ==== Sys2Proof/Machine/Flags.lean ====
section
/-! DEFINITION. STATUS and the codes it holds (10_state.md R21; 60_exceptions.md R150, R153). The WFB has no condition
codes: HALTED and TV are its only flags (R26). -/

namespace Sys2Proof.Machine

/-- The fatal causes of R150. -/
inductive FatalCause where
  | unknownMcs
  | blockAccounting
  | badBandwidth
  | badFrameCode
  | illegalCommand
  | notConfigured
  | illegalConfig
deriving DecidableEq, Repr

/-- The command errors of R153. -/
inductive CmdError where
  | deserUnaligned
  | deserHdrTrunc
  | deserOverrun
  | segBadBlocksize
  | bqFull
  | bqUnderflow
  | bqSizeMismatch
  | operandRange
  | resultRange
  | tooLarge
  | dinKind
deriving DecidableEq, Repr

/-- The code `STATUS.FCAUSE` holds (R150). -/
def fatalCode : FatalCause → Byte
  | .unknownMcs => 0x01
  | .blockAccounting => 0x02
  | .badBandwidth => 0x03
  | .badFrameCode => 0x04
  | .illegalCommand => 0x05
  | .notConfigured => 0x06
  | .illegalConfig => 0x07

/-- The code `STATUS.CERR` holds (R153). -/
def cerrCode : CmdError → Byte
  | .deserUnaligned => 0x01
  | .deserHdrTrunc => 0x02
  | .deserOverrun => 0x03
  | .segBadBlocksize => 0x04
  | .bqFull => 0x05
  | .bqUnderflow => 0x06
  | .bqSizeMismatch => 0x07
  | .operandRange => 0x08
  | .resultRange => 0x09
  | .tooLarge => 0x0A
  | .dinKind => 0x0B

/-- STATUS packed: FCAUSE [23:16], CERR [15:8], TV [1], HALTED [0]; the reserved bits read 0 (R21). -/
def statusWord (s : State) : Word :=
  (0#8) ++ s.fcause ++ s.cerr ++ (0#6) ++ BitVec.ofBool s.tv ++ BitVec.ofBool s.halted

end Sys2Proof.Machine
end

