-- ==== Sys2Proof/Config.lean ====
section
/-! DEFINITION. What an implementation fixes: the types of the parameters of 00_scope.md R8, the constraints the spec
puts on them, the fixed constants of R7, and the constants without a body (the parameter the spec gives no default
for, and the free value of a result that fits no register). The default tables are in Machine/Params.lean. -/

namespace Sys2Proof

/-- One row of the MCS table (41_mcs_table.md R81). -/
structure McsRow where
  /-- Modulation bits per symbol. -/
  bps : Nat
  /-- Code-rate numerator. -/
  rateNum : Nat
  /-- Code-rate denominator. -/
  rateDen : Nat
  /-- FEC block payload size in bytes. -/
  payloadBytes : Nat
  /-- Coded block size in bytes. -/
  codedBytes : Nat
deriving DecidableEq, Repr

/-- The parameters of R8: every definition that reads one takes this structure. -/
structure Params where
  /-- `MCS_TABLE`, indexed by the MCS code. -/
  mcsTable : Vector McsRow 7
  /-- `LEN_HI_BITS`. -/
  lenHiBits : Nat
  /-- `SF_TABLE`, in the order of `BW_KEYS`. -/
  sfTable : Vector Rat 5
  /-- `FRAME_DUR_TABLE`: seconds, or `none` for an undefined code. -/
  frameDur : Byte → Option Rat
  /-- `TICKS_PER_SECOND`. -/
  ticksPerSecond : Nat
  /-- `MAX_BURST_BYTES`. -/
  maxBurstBytes : Nat
  /-- `MAX_BLOCK_BITS`. -/
  maxBlockBits : Nat
  /-- `QDEPTH`. -/
  qdepth : Nat

/-- The constraints of R83 (items 1 to 4 and 7) on one row, with the 8-bit numerator and denominator of R81. That a row
may store a rate in other than lowest terms is the model's (DESIGN CHOICE, log entry 16). -/
structure McsRow.Legal (row : McsRow) (maxBlockBits : Nat) : Prop where
  bps_range : 1 ≤ row.bps ∧ row.bps ≤ 6
  den_pos : 1 ≤ row.rateDen
  rate_lower : row.rateDen ≤ 2 * row.rateNum
  rate_upper : 4 * row.rateNum ≤ 3 * row.rateDen
  rate_bytes : row.rateNum < 256 ∧ row.rateDen < 256
  payload_range : 12 ≤ row.payloadBytes ∧ row.payloadBytes ≤ 108
  coded_range : 24 ≤ row.codedBytes ∧ row.codedBytes ≤ 144
  payload_le_coded : row.payloadBytes ≤ row.codedBytes
  payload_fits : 8 * row.payloadBytes ≤ maxBlockBits

/-- The legal parameter values: R8, R83 (all seven items) and R120. -/
structure Params.Legal (P : Params) : Prop where
  rows : ∀ i : Fin 7, (P.mcsTable[i]).Legal P.maxBlockBits
  row1 : P.mcsTable[1].bps = 2 ∧ 2 * P.mcsTable[1].rateNum = P.mcsTable[1].rateDen ∧
    P.mcsTable[1].payloadBytes = 24
  row0 : P.mcsTable[0].bps = 1 ∧ 2 * P.mcsTable[0].rateNum = P.mcsTable[0].rateDen
  row6 : P.mcsTable[6].bps = 6 ∧ 4 * P.mcsTable[6].rateNum = 3 * P.mcsTable[6].rateDen
  lenHiBits : P.lenHiBits = 3 ∨ P.lenHiBits = 4
  factors : ∀ i : Fin 5, 0 < P.sfTable[i] ∧ (P.sfTable[i]).num.toNat < 2 ^ 16 ∧ (P.sfTable[i]).den < 2 ^ 16
  durations : ∀ code t, P.frameDur code = some t → 0 < t
  ticks : P.ticksPerSecond = 10 ^ 9 ∨ P.ticksPerSecond = 10 ^ 12 ∨ P.ticksPerSecond = 10 ^ 15
  maxBurstBytes : 1 ≤ P.maxBurstBytes
  qdepth : 1 ≤ P.qdepth

/-- `QDEPTH` less one. The spec gives `QDEPTH` no default, only `QDEPTH ≥ 1` (R8, D13, I13), so this has no body: a
claim holds for every depth. -/
opaque Config.qdepthLessOne : Nat

/-- What a result register holds when its exact result is 2^64 or more and no rule checks it (log entry 8): the spec
states no value, so this has no body. -/
opaque Config.unstatedResult : Nat → Dword

end Sys2Proof
end

