-- ==== Sys2Proof/Machine/Params.lean ====
section
/-! DEFINITION. The constants the source fixes (00_scope.md R7), the spec's default tables (41_mcs_table.md R82;
44_timing.md R120, R122) and the parameters this machine runs with (R8; log entries 4 to 7). -/

namespace Sys2Proof.Machine

/-- `CTRL_FRAME_BYTES` (R7). -/
def ctrlFrameBytes : Nat := 6

/-- `CARRIERS` (R7). -/
def carriers : Nat := 192

/-- `COMP_NS`, nanoseconds (R7). -/
def compNs : Nat := 3

/-- `FFT_MIN` (R7). -/
def fftMin : Nat := 256

/-- `FFT_MAX` (R7). -/
def fftMax : Nat := 1024

/-- `BW_KEYS` in Hz, in match order (R7). -/
def bwKeys : Vector Nat 5 := #v[1750000, 1500000, 1250000, 2750000, 2000000]

/-- The default `MCS_TABLE` of R82. UNVERIFIED (log entry 6): by the spec's own words most cells are from general
knowledge. -/
def defaultMcsTable : Vector McsRow 7 := #v[
  { bps := 1, rateNum := 1, rateDen := 2, payloadBytes := 12, codedBytes := 24 },
  { bps := 2, rateNum := 1, rateDen := 2, payloadBytes := 24, codedBytes := 48 },
  { bps := 2, rateNum := 3, rateDen := 4, payloadBytes := 36, codedBytes := 48 },
  { bps := 4, rateNum := 1, rateDen := 2, payloadBytes := 48, codedBytes := 96 },
  { bps := 4, rateNum := 3, rateDen := 4, payloadBytes := 72, codedBytes := 96 },
  { bps := 6, rateNum := 2, rateDen := 3, payloadBytes := 96, codedBytes := 144 },
  { bps := 6, rateNum := 3, rateDen := 4, payloadBytes := 108, codedBytes := 144 }]

/-- The default `SF_TABLE` of R120. UNVERIFIED (log entry 6). -/
def defaultSfTable : Vector Rat 5 := #v[8 / 7, 86 / 75, 144 / 125, 316 / 275, 57 / 50]

/-- The default `FRAME_DUR_TABLE` of R122, in seconds. UNVERIFIED (log entry 6). -/
def defaultFrameDur (code : Byte) : Option Rat :=
  match code with
  | 0#8 => some (25 / 10000)
  | 1#8 => some (4 / 1000)
  | 2#8 => some (5 / 1000)
  | 3#8 => some (8 / 1000)
  | 4#8 => some (10 / 1000)
  | 5#8 => some (125 / 10000)
  | 6#8 => some (20 / 1000)
  | _ => none

/-- The spec's defaults (R8) with a given queue depth. -/
def defaultParams (qdepth : Nat) : Params where
  mcsTable := defaultMcsTable
  lenHiBits := 3
  sfTable := defaultSfTable
  frameDur := defaultFrameDur
  ticksPerSecond := 10 ^ 9
  maxBurstBytes := 2 ^ 32 - 1
  maxBlockBits := 864
  qdepth := qdepth

/-- The parameters of this machine: every default of R8, and any depth of at least 1 (log entries 4, 5). -/
def params : Params := defaultParams (Config.qdepthLessOne + 1)

/-- `payloadBits(m)` (R81). -/
def payloadBits (row : McsRow) : Nat := 8 * row.payloadBytes

/-- `codedBits(m)` (R81). -/
def codedBits (row : McsRow) : Nat := 8 * row.codedBytes

/-- The row an MCS code selects; code 7 selects none (R58, R84). -/
def mcsRow (P : Params) : McsCode → Option McsRow
  | .bpsk_1_2 => some P.mcsTable[0]
  | .qpsk_1_2 => some P.mcsTable[1]
  | .qpsk_3_4 => some P.mcsTable[2]
  | .qam16_1_2 => some P.mcsTable[3]
  | .qam16_3_4 => some P.mcsTable[4]
  | .qam64_2_3 => some P.mcsTable[5]
  | .qam64_3_4 => some P.mcsTable[6]
  | .code7 => none

end Sys2Proof.Machine
end

