-- ==== Sys2Proof/Machine/Quantities.lean ====
section
/-! DEFINITION. The quantities of the timing calculator as exact functions of a configuration and the MCS table
(44_timing.md R119 to R125). Rounding happens only where a rule writes it (R10, D15). -/

namespace Sys2Proof.Machine

/-- `ceil_div(a, b) = ⌈a / b⌉` for `b > 0` (00_scope.md R10). -/
def ceilDiv (a b : Nat) : Nat := (a + b - 1) / b

/-- `⌊q⌋` of a rational that is not negative (R10). -/
def floorNat (q : Rat) : Nat := q.floor.toNat

/-- The first `i` in the order 0 to 4 with `BW mod BW_KEYS[i] = 0`, if there is one (R119). -/
def keyIndex (bw : Nat) : Option (Fin 5) :=
  if bw % bwKeys[0] = 0 then some 0
  else if bw % bwKeys[1] = 0 then some 1
  else if bw % bwKeys[2] = 0 then some 2
  else if bw % bwKeys[3] = 0 then some 3
  else if bw % bwKeys[4] = 0 then some 4
  else none

/-- The sampling factor `n`, if the bandwidth matches a key (R119). -/
def samplingFactor (P : Params) (c : Cfg) : Option Rat :=
  (keyIndex c.bw.toNat).map fun i => P.sfTable[i]

/-- `n` as a number. A configuration without one never becomes valid (R126), so the 0 is read in no reachable state
(log entry 9). -/
def sf (P : Params) (c : Cfg) : Rat := (samplingFactor P c).getD 0

/-- `G = GNUM / GDEN` (R19, R121). -/
def cpRatio (c : Cfg) : Rat := (c.gnum.toNat : Rat) / (c.gden.toNat : Rat)

/-- `Fs = n × BW`, Hz (R121). -/
def fs (P : Params) (c : Cfg) : Rat := sf P c * (c.bw.toNat : Rat)

/-- `Δf = Fs / FFT`, Hz (R121). -/
def spacing (P : Params) (c : Cfg) : Rat := fs P c / (c.fft.toNat : Rat)

/-- `Tb = 1 / Δf`, seconds (R121). -/
def tb (P : Params) (c : Cfg) : Rat := 1 / spacing P c

/-- `Tg = G × Tb`, seconds (R121). -/
def tg (P : Params) (c : Cfg) : Rat := cpRatio c * tb P c

/-- `Ts = Tb + Tg`, the symbol duration in seconds (R121). -/
def ts (P : Params) (c : Cfg) : Rat := tb P c + tg P c

/-- `Ps = 4 / Fs`, the physical-slot duration in seconds (R122). -/
def ps (P : Params) (c : Cfg) : Rat := 4 / fs P c

/-- `Tf`, the frame duration in seconds (R122); the 0 is read in no reachable state (log entry 9). -/
def tf (P : Params) (c : Cfg) : Rat := (P.frameDur c.frameCode).getD 0

/-- `toTicks(t) = ⌊t × TICKS_PER_SECOND⌋` (R125). -/
def toTicks (P : Params) (t : Rat) : Nat := floorNat (t * (P.ticksPerSecond : Rat))

/-- `COMP_TICKS = COMP_NS × TICKS_PER_SECOND / 10^9` (R125). -/
def compTicks (P : Params) : Nat := compNs * P.ticksPerSecond / 10 ^ 9

/-- The exact code rate (R81). -/
def codeRate (row : McsRow) : Rat := (row.rateNum : Rat) / (row.rateDen : Rat)

/-- `BPS(m) = ⌊bps(m) × CARRIERS × rate(m)⌋`, bits per OFDM symbol (R123). -/
def bitsPerSymbol (row : McsRow) : Nat := floorNat ((row.bps : Rat) * (carriers : Rat) * codeRate row)

/-- `DataRate(m) = BPS(m) / Ts`, bits per second, exact (R123). -/
def dataRate (P : Params) (c : Cfg) (row : McsRow) : Rat := (bitsPerSymbol row : Rat) / ts P c

/-- `BlockTime(m) = codedBits(m) / DataRate(m)`, seconds, exact (R124). -/
def blockTime (P : Params) (c : Cfg) (row : McsRow) : Rat := (codedBits row : Rat) / dataRate P c row

/-- `NrBlocks(B, m)` (R124). -/
def nrBlocks (row : McsRow) (bytes : Nat) : Nat := ceilDiv (8 * bytes) (payloadBits row)

/-- `NrSymbols(B, m)` in the integer form R124 derives and R133 computes. -/
def nrSymbols (row : McsRow) (bytes : Nat) : Nat :=
  ceilDiv (nrBlocks row bytes * codedBits row) (bitsPerSymbol row)

/-- `BurstTime(B, m)` before compensation, seconds, exact (R124). -/
def burstTime (P : Params) (c : Cfg) (row : McsRow) (bytes : Nat) : Rat := (nrSymbols row bytes : Rat) * ts P c

/-- `NrBytes(N, m) = ⌊N × BPS(m) / 8⌋` (R124). -/
def nrBytes (row : McsRow) (symbols : Nat) : Nat := symbols * bitsPerSymbol row / 8

/-- The derived registers 0x20 to 0x2A of one configuration, before any width (40_config.md R76). -/
structure Derived where
  sfNum : Nat
  sfDen : Nat
  fsHz : Nat
  spacingHz : Nat
  tbTicks : Nat
  tgTicks : Nat
  tsTicks : Nat
  psTicks : Nat
  psPerSym : Nat
  frameTicks : Nat
  symPerFrame : Nat
deriving DecidableEq, Repr

/-- The table of R76. -/
def derived (P : Params) (c : Cfg) : Derived where
  sfNum := (sf P c).num.toNat
  sfDen := (sf P c).den
  fsHz := floorNat (fs P c)
  spacingHz := floorNat (spacing P c)
  tbTicks := toTicks P (tb P c)
  tgTicks := toTicks P (tg P c)
  tsTicks := toTicks P (ts P c)
  psTicks := toTicks P (ps P c)
  psPerSym := floorNat (ts P c / ps P c)
  frameTicks := toTicks P (tf P c)
  symPerFrame := floorNat (tf P c / ts P c)

/-- Every derived register is less than 2^64: the last check of TIMING_INIT (R126). -/
def derivedFits (d : Derived) : Bool :=
  [d.sfNum, d.sfDen, d.fsHz, d.spacingHz, d.tbTicks, d.tgTicks, d.tsTicks, d.psTicks, d.psPerSym, d.frameTicks,
    d.symPerFrame].all (fun v => decide (v < 2 ^ 64))

/-- The first check of TIMING_INIT: `BW`, `FFT` and `G` are in their legal ranges (R19, R126). -/
def configInRange (c : Cfg) : Bool :=
  !(c.bw == 0 || decide (c.fft.toNat < fftMin) || decide (c.fft.toNat > fftMax) || c.gden == 0 ||
    decide (c.gnum.toNat > c.gden.toNat))

end Sys2Proof.Machine
end

