-- ==== Sys2Proof/Machine/Operands.lean ====
section
/-! DEFINITION. Where a command's operands come from: the transaction's `A0`, `A1` and `DIN` (30_encoding.md R60), and
the registers of 10_state.md R20 (40_config.md R73, R76). -/

namespace Sys2Proof.Machine

/-- `A0`, zero-extended to an unbounded integer (R60). -/
def opA0 (s : State) : Nat := s.a0.toNat

/-- `A1`, zero-extended to an unbounded integer (R60). -/
def opA1 (s : State) : Nat := s.a1.toNat

/-- `DIN` when it is a BITS payload (R25). -/
def dinBits (s : State) : Option Bits :=
  match s.din with
  | .none => none
  | .bits b => some b
  | .burst _ => none

/-- `DIN` when it is a BURST payload (R25). -/
def dinBurst (s : State) : Option Burst :=
  match s.din with
  | .none => none
  | .bits _ => none
  | .burst b => some b

/-- The width column of R20 for a register CFG_WR can write. -/
def writeWidth : Reg → Option Nat
  | .bw => some 32
  | .fft => some 16
  | .gnum => some 16
  | .gden => some 16
  | .frameCode => some 8
  | .status => none
  | .bqLevel => none
  | .sfNum => none
  | .sfDen => none
  | .fsHz => none
  | .spacingHz => none
  | .tbTicks => none
  | .tgTicks => none
  | .tsTicks => none
  | .psTicks => none
  | .psPerSym => none
  | .frameTicks => none
  | .symPerFrame => none

/-- `CFG[k] <- v` for a value that fits the register (R73); a read-only register has no storage to write. -/
def writeCfg (k : Reg) (v : Nat) (c : Cfg) : Cfg :=
  match k with
  | .bw => { c with bw := BitVec.ofNat 32 v }
  | .fft => { c with fft := BitVec.ofNat 16 v }
  | .gnum => { c with gnum := BitVec.ofNat 16 v }
  | .gden => { c with gden := BitVec.ofNat 16 v }
  | .frameCode => { c with frameCode := BitVec.ofNat 8 v }
  | .status => c
  | .bqLevel => c
  | .sfNum => c
  | .sfDen => c
  | .fsHz => c
  | .spacingHz => c
  | .tbTicks => c
  | .tgTicks => c
  | .tsTicks => c
  | .psTicks => c
  | .psPerSym => c
  | .frameTicks => c
  | .symPerFrame => c

/-- A derived register: 0 while `TV = 0`, else its value computed from `TCFG` (R20, R76). -/
def readDerived (P : Params) (s : State) (value : Derived → Nat) : Nat :=
  if s.tv then value (derived P s.tcfg) else 0

/-- `read(k)` of R76. -/
def readReg (P : Params) (k : Reg) (s : State) : Nat :=
  match k with
  | .bw => s.cfg.bw.toNat
  | .fft => s.cfg.fft.toNat
  | .gnum => s.cfg.gnum.toNat
  | .gden => s.cfg.gden.toNat
  | .frameCode => s.cfg.frameCode.toNat
  | .status => (statusWord s).toNat
  | .bqLevel => s.bq.length
  | .sfNum => readDerived P s Derived.sfNum
  | .sfDen => readDerived P s Derived.sfDen
  | .fsHz => readDerived P s Derived.fsHz
  | .spacingHz => readDerived P s Derived.spacingHz
  | .tbTicks => readDerived P s Derived.tbTicks
  | .tgTicks => readDerived P s Derived.tgTicks
  | .tsTicks => readDerived P s Derived.tsTicks
  | .psTicks => readDerived P s Derived.psTicks
  | .psPerSym => readDerived P s Derived.psPerSym
  | .frameTicks => readDerived P s Derived.frameTicks
  | .symPerFrame => readDerived P s Derived.symPerFrame

end Sys2Proof.Machine
end

