-- ==== Sys2Proof/Machine/Ops.lean ====
section
/-! DEFINITION. The operations the commands share: how a command ends (completion, command error, fatal), the return
from a halt, the bit and byte orders, the block queue, and the transaction port. -/

namespace Sys2Proof.Machine

/-- What `exec` and `step` answer. -/
abbrev Answer := Host.Outcome State Fault Refusal

/-! ### How a command ends -/

/-- An exact result as a 64-bit register value. A rule reduces no result (00_scope.md R10), so one that does not fit is
left unstated by the spec and is a free value (log entry 8). -/
def toReg (v : Nat) : Dword :=
  if v < 2 ^ 64 then BitVec.ofNat 64 v else Config.unstatedResult v

/-- The four result registers from their exact values. -/
def results (v0 v1 v2 v3 : Nat) : Results :=
  { r0 := toReg v0, r1 := toReg v1, r2 := toReg v2, r3 := toReg v3 }

/-- Completion without a raise: all four result registers, DOUT and `CERR <- 0` (10_state.md R17; 60_exceptions.md
R144). -/
def complete (r : Results) (dout : Payload) (s : State) : Answer :=
  .next { s with r := r, dout := dout, cerr := 0 }

/-- `raise Fatal(cause)`, the machine's one exception entry (60_exceptions.md R148): it halts, records the cause, clears
CERR and changes nothing else; DOUT is NONE. No other state is saved and no vector is taken. -/
def raiseFatal (cause : FatalCause) (s : State) : Answer :=
  .next { s with halted := true, fcause := fatalCode cause, cerr := 0, dout := .none }

/-- The way out of a halt: a reset (60_exceptions.md R156; 70_reset_and_hazards.md R163, R164). All of R15 goes to its
reset value; what the host has presented after the reset is still to come. -/
def resetEvent (rest : List HostEvent) : Answer :=
  .next { State.reset with inbox := rest }

/-- `raise CErr(code)` (60_exceptions.md R152): CERR holds the code, `R0` to `R3` are 0, DOUT is NONE, nothing else
changes. -/
def raiseCErr (e : CmdError) (s : State) : Answer :=
  .next { s with cerr := cerrCode e, r := Results.zero, dout := .none }

/-! ### Checks shared by the class M commands -/

/-- Every use of `mcs(7)` is fatal before anything else (41_mcs_table.md R84). -/
def withMcs (P : Params) (m : McsCode) (s : State) (k : McsRow → Answer) : Answer :=
  match mcsRow P m with
  | none => raiseFatal .unknownMcs s
  | some row => k row

/-- The opening checks of every timing command, in order (44_timing.md R127). -/
def withTiming (P : Params) (m : McsCode) (s : State) (k : McsRow → Answer) : Answer :=
  withMcs P m s fun row => if s.tv then k row else raiseFatal .notConfigured s

/-! ### Byte and bit order (20_memory.md R38) -/

/-- One byte, MSB-first. -/
def bitsOfByte (b : Byte) : Bits :=
  [b.getLsbD 7, b.getLsbD 6, b.getLsbD 5, b.getLsbD 4, b.getLsbD 3, b.getLsbD 2, b.getLsbD 1, b.getLsbD 0]

/-- `bits_of(bytes)`. -/
def bitsOf (bytes : List Byte) : Bits := bytes.flatMap bitsOfByte

/-- Eight bits as a byte, the first one the most significant. -/
def byteOfBits (b7 b6 b5 b4 b3 b2 b1 b0 : Bool) : Byte :=
  BitVec.ofNat 8 (b7.toNat * 128 + b6.toNat * 64 + b5.toNat * 32 + b4.toNat * 16 + b3.toNat * 8 + b2.toNat * 4 +
    b1.toNat * 2 + b0.toNat)

/-- `bytes_of(bits)`, for a length that is a multiple of 8 (the only one it is given, R96). -/
def bytesOf : Bits → List Byte
  | b7 :: b6 :: b5 :: b4 :: b3 :: b2 :: b1 :: b0 :: rest => byteOfBits b7 b6 b5 b4 b3 b2 b1 b0 :: bytesOf rest
  | _ => []

/-- `zeros(k)` (R10). -/
def zeros (k : Nat) : Bits := List.replicate k false

/-! ### The block queue (10_state.md R24) -/

/-- `BQ.level`. -/
def bqLevel (s : State) : Nat := s.bq.length

/-- `BQ.push` of several blocks, in order. -/
def bqPushAll (blocks : List Block) (s : State) : State := { s with bq := s.bq ++ blocks }

/-- `BQ.pop` of the first `c` blocks. -/
def bqDrop (c : Nat) (s : State) : State := { s with bq := s.bq.drop c }

/-! ### The transaction port (00_scope.md R6) -/

/-- Latch a transaction's operands for the command that is about to run. -/
def accept (t : Transaction) (s : State) : State := { s with a0 := t.a0, a1 := t.a1, din := t.din }

/-- The end of an executed transaction: the operands are gone (R16, R25) and one more transaction is completed (R18). -/
def retire (s : State) : State := { s with a0 := 0, a1 := 0, din := .none, completed := s.completed + 1 }

/-- `retire` on the next state of an answer. -/
def retireAnswer : Answer → Answer
  | .next s => .next (retire s)
  | .fault f => .fault f
  | .refused r => .refused r

/-- A transaction presented while halted: the state as it is, DOUT NONE (60_exceptions.md R145). -/
def answerHalted (s : State) : Answer := .next { s with dout := .none }

/-- The response of the latest transaction (R6). After every transaction STATUS and `R0` to `R3` are as the response
gives them (60_exceptions.md R144, R145, R148, R152), so only DOUT is held for it. -/
structure Response where
  status : Word
  r : Results
  dout : Payload
deriving DecidableEq, Repr

/-- The response the host reads from a state. -/
def response (s : State) : Response := { status := statusWord s, r := s.r, dout := s.dout }

/-- Put a command word where the next step takes its command from: the first presented transaction, with its operands
kept, or a new one with operands 0 and DIN NONE if the first event is not a transaction. -/
def placeCommand (w : Word) (inbox : List HostEvent) : List HostEvent :=
  match inbox with
  | .present t :: rest => .present { t with cmd := w } :: rest
  | .reset :: rest => .present { cmd := w, a0 := 0, a1 := 0, din := .none } :: .reset :: rest
  | [] => [.present { cmd := w, a0 := 0, a1 := 0, din := .none }]

end Sys2Proof.Machine
end

