-- ==== Sys2Proof/Machine/BitCodec.lean ====
section
/-! DEFINITION. The bit codec: packet headers (30_encoding.md R64 to R68), the scan, SERIALIZE and DESERIALIZE
(42_bit_codec.md R93 to R104). -/

namespace Sys2Proof.Machine

/-- Byte `i` of a buffer; every use stands behind a bounds check (R97). -/
def byteAt (buf : List Byte) (i : Nat) : Byte := buf.getD i 0

/-- The header type `HT`, bit 7 of a packet's first byte (R64): true marks a control frame. -/
def headerType (first : Byte) : Bool := first.getLsbD 7

/-- The length field `(p[1][LEN_HI_BITS-1:0] << 8) | p[2]` (R40, R66). -/
def lengthField (lenHiBits : Nat) (byte1 byte2 : Byte) : Nat :=
  (byte1.toNat % 2 ^ lenHiBits) <<< 8 ||| byte2.toNat

/-- What the header at an offset says (R68). -/
inductive Header where
  /-- The packet is this many bytes long. -/
  | packet (len : Nat)
  /-- The padding terminator (R67). -/
  | padding
  /-- A data header whose three bytes run past the end (R97). -/
  | truncated
deriving DecidableEq, Repr

/-- Read the header at `pos` (the body of the loop of R97 up to its length). -/
def readHeader (lenHiBits : Nat) (buf : List Byte) (pos : Nat) : Header :=
  if headerType (byteAt buf pos) then .packet ctrlFrameBytes
  else if pos + 3 > buf.length then .truncated
  else
    let len := lengthField lenHiBits (byteAt buf (pos + 1)) (byteAt buf (pos + 2))
    if len = 0 then .padding else .packet len

/-- The result of a scan (R97). -/
inductive ScanResult where
  | ok (pkts : Burst) (pos : Nat) (padded : Bool)
  | err (e : CmdError)
deriving DecidableEq, Repr

/-- The loop of R97. `fuel` bounds the iterations: each one that goes on adds at least 1 to `pos`, so a fuel of
`|buf|` never runs out before `pos` reaches the end. -/
def scanLoop (lenHiBits : Nat) (buf : List Byte) : Nat → Nat → Burst → ScanResult
  | 0, pos, pkts => .ok pkts pos false
  | fuel + 1, pos, pkts =>
    if pos < buf.length then
      match readHeader lenHiBits buf pos with
      | .truncated => .err .deserHdrTrunc
      | .padding => .ok pkts pos true
      | .packet len =>
        if pos + len > buf.length then .err .deserOverrun
        else scanLoop lenHiBits buf fuel (pos + len) (pkts ++ [(buf.drop pos).take len])
    else .ok pkts pos false

/-- `scan(buf)` (R97). -/
def scan (lenHiBits : Nat) (buf : List Byte) : ScanResult := scanLoop lenHiBits buf buf.length 0 []

/-- The total size of a burst in bytes (R93). -/
def burstBytes (b : Burst) : Nat := (b.map List.length).sum

/-- SERIALIZE (R93, R94). -/
def serializeCmd (P : Params) (s : State) : Answer :=
  match dinBurst s with
  | none => raiseCErr .dinKind s
  | some b =>
    if burstBytes b > P.maxBurstBytes then raiseCErr .tooLarge s
    else complete (results (8 * burstBytes b) b.length (burstBytes b) 0) (.bits (bitsOf b.flatten)) s

/-- DESERIALIZE (R96 to R102). -/
def deserializeCmd (P : Params) (s : State) : Answer :=
  match dinBits s with
  | none => raiseCErr .dinKind s
  | some bits =>
    if bits.length % 8 ≠ 0 then raiseCErr .deserUnaligned s
    else if bits.length > 8 * P.maxBurstBytes then raiseCErr .tooLarge s
    else
      match scan P.lenHiBits (bytesOf bits) with
      | .err e => raiseCErr e s
      | .ok pkts pos padded =>
        complete (results pkts.length pos padded.toNat ((bytesOf bits).length - pos)) (.burst pkts) s

/-- SERIALIZE with this machine's parameters. -/
def execSerialize (s : State) : Host.Outcome State Fault Refusal := serializeCmd params s

/-- DESERIALIZE with this machine's parameters. -/
def execDeserialize (s : State) : Host.Outcome State Fault Refusal := deserializeCmd params s

end Sys2Proof.Machine
end

