-- ==== Sys2Proof/Machine/Configuration.lean ====
section
/-! DEFINITION. The configuration family: CFG_WR and CFG_RD (40_config.md R73 to R76). -/

namespace Sys2Proof.Machine

/-- CFG_WR (R73). A register without a write width is read-only: no legal word names one here, and R73 gives it
ILLEGAL_COMMAND (log entry 10). -/
def execCfgWr (reg : Reg) (s : State) : Host.Outcome State Fault Refusal :=
  match writeWidth reg with
  | none => raiseFatal .illegalCommand s
  | some w =>
    if opA0 s ≥ 2 ^ w then raiseCErr .operandRange s
    else complete (results 0 0 0 0) .none { s with cfg := writeCfg reg (opA0 s) s.cfg, tv := false }

/-- CFG_RD (R75): the register is read before this command's own CERR write. -/
def cfgRdCmd (P : Params) (reg : Reg) (s : State) : Answer :=
  if readReg P reg s ≥ 2 ^ 64 then raiseCErr .resultRange s
  else complete (results (readReg P reg s) 0 0 0) .none s

/-- CFG_RD with this machine's parameters. -/
def execCfgRd (reg : Reg) (s : State) : Host.Outcome State Fault Refusal := cfgRdCmd params reg s

end Sys2Proof.Machine
end

