-- ==== Sys2Proof/Machine/McsTable.lean ====
section
/-! DEFINITION. The MCS family: MCS_INFO and BLOCK_PLAN (41_mcs_table.md R81 to R92). -/

namespace Sys2Proof.Machine

/-- MCS_INFO (R87). R1 packs the stored numerator and denominator; for a table that stores a rate in other than lowest
terms, where R87 leaves R1 open, that is the model's (DESIGN CHOICE, log entry 16). -/
def mcsInfoCmd (P : Params) (mcs : McsCode) (s : State) : Answer :=
  withMcs P mcs s fun row =>
    complete (results row.bps (row.rateNum <<< 8 ||| row.rateDen) row.payloadBytes row.codedBytes) .none s

/-- The padding of `nb` blocks of `bs` bits that hold `bits` bits (R89). -/
def paddingBits (nb bs bits : Nat) : Nat := nb * bs - bits

/-- BLOCK_PLAN (R89). The block-accounting check stays as the source lists it, though it never fires (R90). -/
def blockPlanCmd (P : Params) (mcs : McsCode) (s : State) : Answer :=
  withMcs P mcs s fun row =>
    let bytes := opA0 s
    let bits := 8 * bytes
    let bs := payloadBits row
    let nb := ceilDiv bits bs
    if bytes > P.maxBurstBytes then raiseCErr .tooLarge s
    else if nb * bs < bits then raiseFatal .blockAccounting s
    else complete (results bs nb (paddingBits nb bs bits) bits) .none s

/-- MCS_INFO with this machine's parameters. -/
def execMcsInfo (mcs : McsCode) (s : State) : Host.Outcome State Fault Refusal := mcsInfoCmd params mcs s

/-- BLOCK_PLAN with this machine's parameters. -/
def execBlockPlan (mcs : McsCode) (s : State) : Host.Outcome State Fault Refusal := blockPlanCmd params mcs s

end Sys2Proof.Machine
end

