-- ==== Sys2Proof/Machine/Segmenter.lean ====
section
/-! DEFINITION. The block segmenter and its queue: SEGMENT, REASSEMBLE, BQ_PUSH and BQ_CLEAR (43_segmenter.md R105 to
R114). -/

namespace Sys2Proof.Machine

/-- The `k` blocks `t[i·bs .. (i+1)·bs)`, `i = 0 .. k − 1` (R105; 20_memory.md R41). -/
def splitBlocks (bs : Nat) : Nat → Bits → List Block
  | 0, _ => []
  | k + 1, t => t.take bs :: splitBlocks bs k (t.drop bs)

/-- A block size SEGMENT, REASSEMBLE and BQ_PUSH refuse: 0 or more than `MAX_BLOCK_BITS` (R105, R108, R111). -/
def badBlockSize (P : Params) (bs : Nat) : Bool := bs == 0 || decide (bs > P.maxBlockBits)

/-- SEGMENT (R105 to R107). -/
def segmentCmd (P : Params) (s : State) : Answer :=
  match dinBits s with
  | none => raiseCErr .dinKind s
  | some bits =>
    let bs := opA0 s
    let k := ceilDiv bits.length bs
    let pad := k * bs - bits.length
    if badBlockSize P bs then raiseCErr .segBadBlocksize s
    else if bits.length > 8 * P.maxBurstBytes then raiseCErr .tooLarge s
    else if bqLevel s + k > P.qdepth then raiseCErr .bqFull s
    else
      let s' := bqPushAll (splitBlocks bs k (bits ++ zeros pad)) s
      complete (results k pad (bqLevel s') 0) .none s'

/-- REASSEMBLE (R108, R109). -/
def reassembleCmd (P : Params) (s : State) : Answer :=
  let c := opA0 s
  let bs := opA1 s
  if badBlockSize P bs then raiseCErr .segBadBlocksize s
  else if c > bqLevel s then raiseCErr .bqUnderflow s
  else if (s.bq.take c).any (fun blk => blk.length != bs) then raiseCErr .bqSizeMismatch s
  else
    let s' := bqDrop c s
    complete (results (c * bs) (bqLevel s') 0 0) (.bits (s.bq.take c).flatten) s'

/-- BQ_PUSH (R111, R112). -/
def bqPushCmd (P : Params) (s : State) : Answer :=
  match dinBits s with
  | none => raiseCErr .dinKind s
  | some blk =>
    if badBlockSize P blk.length then raiseCErr .segBadBlocksize s
    else if bqLevel s = P.qdepth then raiseCErr .bqFull s
    else
      let s' := bqPushAll [blk] s
      complete (results (bqLevel s') 0 0 0) .none s'

/-- SEGMENT with this machine's parameters. -/
def execSegment (s : State) : Host.Outcome State Fault Refusal := segmentCmd params s

/-- REASSEMBLE with this machine's parameters. -/
def execReassemble (s : State) : Host.Outcome State Fault Refusal := reassembleCmd params s

/-- BQ_PUSH with this machine's parameters. -/
def execBqPush (s : State) : Host.Outcome State Fault Refusal := bqPushCmd params s

/-- BQ_CLEAR (R113). -/
def execBqClear (s : State) : Host.Outcome State Fault Refusal :=
  complete (results (bqLevel s) 0 0 0) .none { s with bq := [] }

end Sys2Proof.Machine
end

