-- ==== Sys2Proof/Machine/Timing.lean ====
section
/-! DEFINITION. The timing family: TIMING_INIT and the five timing commands (44_timing.md R126 to R139). -/

namespace Sys2Proof.Machine

/-- TIMING_INIT (R126, R128), its checks in order. -/
def timingInitCmd (P : Params) (s : State) : Answer :=
  let c := s.cfg
  if configInRange c = false then raiseFatal .illegalConfig s
  else if samplingFactor P c = none then raiseFatal .badBandwidth s
  else if P.frameDur c.frameCode = none then raiseFatal .badFrameCode s
  else if derivedFits (derived P c) = false then raiseFatal .illegalConfig s
  else
    let d := derived P c
    complete (results d.tsTicks d.symPerFrame d.psPerSym d.fsHz) .none { s with tcfg := c, tv := true }

/-- DATA_RATE (R129, R130). -/
def dataRateCmd (P : Params) (mcs : McsCode) (s : State) : Answer :=
  withTiming P mcs s fun row =>
    complete (results (floorNat (dataRate P s.tcfg row)) (bitsPerSymbol row) 0 0) .none s

/-- BLOCK_TIME (R131, R132). -/
def blockTimeCmd (P : Params) (mcs : McsCode) (s : State) : Answer :=
  withTiming P mcs s fun row =>
    let t := toTicks P (blockTime P s.tcfg row)
    if t ≥ 2 ^ 64 then raiseCErr .resultRange s
    else complete (results t 0 0 0) .none s

/-- BURST_TIME (R133 to R135): the compensation is added once, after conversion to ticks. -/
def burstTimeCmd (P : Params) (mcs : McsCode) (s : State) : Answer :=
  withTiming P mcs s fun row =>
    let bytes := opA0 s
    let t := toTicks P (burstTime P s.tcfg row bytes) + compTicks P
    if bytes > P.maxBurstBytes then raiseCErr .tooLarge s
    else if t ≥ 2 ^ 64 then raiseCErr .resultRange s
    else complete (results t (nrSymbols row bytes) (nrBlocks row bytes) 0) .none s

/-- NR_SYMBOLS (R136, R137). -/
def nrSymbolsCmd (P : Params) (mcs : McsCode) (s : State) : Answer :=
  withTiming P mcs s fun row =>
    let bytes := opA0 s
    if bytes > P.maxBurstBytes then raiseCErr .tooLarge s
    else complete (results (nrSymbols row bytes) (nrBlocks row bytes) 0 0) .none s

/-- NR_BYTES (R138, R139). -/
def nrBytesCmd (P : Params) (mcs : McsCode) (s : State) : Answer :=
  withTiming P mcs s fun row =>
    complete (results (nrBytes row (opA0 s)) 0 0 0) .none s

/-- TIMING_INIT with this machine's parameters. -/
def execTimingInit (s : State) : Host.Outcome State Fault Refusal := timingInitCmd params s

/-- DATA_RATE with this machine's parameters. -/
def execDataRate (mcs : McsCode) (s : State) : Host.Outcome State Fault Refusal := dataRateCmd params mcs s

/-- BLOCK_TIME with this machine's parameters. -/
def execBlockTime (mcs : McsCode) (s : State) : Host.Outcome State Fault Refusal := blockTimeCmd params mcs s

/-- BURST_TIME with this machine's parameters. -/
def execBurstTime (mcs : McsCode) (s : State) : Host.Outcome State Fault Refusal := burstTimeCmd params mcs s

/-- NR_SYMBOLS with this machine's parameters. -/
def execNrSymbols (mcs : McsCode) (s : State) : Host.Outcome State Fault Refusal := nrSymbolsCmd params mcs s

/-- NR_BYTES with this machine's parameters. -/
def execNrBytes (mcs : McsCode) (s : State) : Host.Outcome State Fault Refusal := nrBytesCmd params mcs s

end Sys2Proof.Machine
end

