-- ==== Sys2Proof/Machine/Dispatch.lean ====
section
/-! DEFINITION. The dispatch: one arm per command (30_encoding.md R56; 60_exceptions.md R144). -/

namespace Sys2Proof.Machine

/-- Run the rule of one command on a state whose port holds the transaction's operands. The halted check and the decode
come before it, in `transact` (R144). -/
def exec (i : Instr) (s : State) : Host.Outcome State Fault Refusal :=
  match i with
  | .cfgWr reg => Sys2Proof.Machine.execCfgWr reg s
  | .cfgRd reg => Sys2Proof.Machine.execCfgRd reg s
  | .mcsInfo mcs => Sys2Proof.Machine.execMcsInfo mcs s
  | .blockPlan mcs => Sys2Proof.Machine.execBlockPlan mcs s
  | .serialize => Sys2Proof.Machine.execSerialize s
  | .deserialize => Sys2Proof.Machine.execDeserialize s
  | .segment => Sys2Proof.Machine.execSegment s
  | .reassemble => Sys2Proof.Machine.execReassemble s
  | .bqPush => Sys2Proof.Machine.execBqPush s
  | .bqClear => Sys2Proof.Machine.execBqClear s
  | .timingInit => Sys2Proof.Machine.execTimingInit s
  | .dataRate mcs => Sys2Proof.Machine.execDataRate mcs s
  | .blockTime mcs => Sys2Proof.Machine.execBlockTime mcs s
  | .burstTime mcs => Sys2Proof.Machine.execBurstTime mcs s
  | .nrSymbols mcs => Sys2Proof.Machine.execNrSymbols mcs s
  | .nrBytes mcs => Sys2Proof.Machine.execNrBytes mcs s

end Sys2Proof.Machine
end

