-- ==== Sys2Proof/Machine/Transact.lean ====
section
/-! DEFINITION. One transaction, and one host event (60_exceptions.md R144, R145, R149; 70_reset_and_hazards.md R163).
Both take the function that runs a decoded command as an argument: the commands with this machine's parameters
(Machine/Step.lean) or with any parameters (Machine/Parametric.lean). -/

namespace Sys2Proof.Machine

/-- Decode the word and run its command on the transaction's operands; an illegal word is fatal before any operand is
read (R144, R149). -/
def executeTransaction (run : Instr → State → Answer) (t : Transaction) (s : State) : Answer :=
  match decode t.cmd with
  | .error _ => retireAnswer (raiseFatal .illegalCommand s)
  | .ok i => retireAnswer (run i (accept t s))

/-- The step of R144 on one transaction: while halted nothing is executed or decoded (R145). -/
def transact (run : Instr → State → Answer) (t : Transaction) (s : State) : Answer :=
  if s.halted then answerHalted s else executeTransaction run t s

/-- Take the first event the host has presented. With none the WFB is idle and keeps its state (R162, R165; log entry
2). -/
def takeEvent (run : Instr → State → Answer) (s : State) : Answer :=
  match s.inbox with
  | [] => .next s
  | .reset :: rest => resetEvent rest
  | .present t :: rest => transact run t { s with inbox := rest }

end Sys2Proof.Machine
end

