-- ==== Sys2Proof/Machine/Step.lean ====
section
/-! DEFINITION. One step of the machine, and where a step takes its next command from. -/

namespace Sys2Proof.Machine

/-- One step: the next host event, a whole transaction or a reset (60_exceptions.md R144; 70_reset_and_hazards.md
R163). -/
def step (s : State) : Host.Outcome State Fault Refusal := takeEvent exec s

/-- `s` with a command word as the next command presented (log entry 2). The WFB fetches nothing (10_state.md R18): a
program is the list of transactions the host presents (70_reset_and_hazards.md R180). -/
def State.withFetchWord (s : State) (nbits w : Nat) : State :=
  { s with inbox := placeCommand (BitVec.ofNat 32 (w % 2 ^ nbits)) s.inbox }

end Sys2Proof.Machine
end

