-- ==== Sys2Proof/Machine/Assembler.lean ====
section
/-! DEFINITION. The assembler's lines and its two pseudo-instructions (30_encoding.md R70, R71), as structured data; the
characters of a line are the host's (log entry 13). -/

namespace Sys2Proof.Machine

/-- One line `MNEMONIC [mcs=] [reg=] [a0=] [a1=] [din=]` (R70). -/
structure AsmLine where
  mnemonic : Mnemonic
  mcs : Option McsCode := none
  reg : Option Reg := none
  a0 : Option Word := none
  a1 : Option Word := none
  din : Option Payload := none
deriving DecidableEq, Repr

/-- The fields a line names are fields its class uses, and `mcs=` names one of the seven schemes (R58, R70). -/
def fieldsAllowed (l : AsmLine) : Bool :=
  (l.mcs.isNone || fieldClass l.mnemonic == .m) && (l.reg.isNone || fieldClass l.mnemonic == .r) &&
    l.mcs != some .code7

/-- Assemble a line: omitted fields and operands are 0, an omitted `din=` is NONE, and a line that would make an illegal
word is rejected (R70). -/
def assemble (l : AsmLine) : Option Transaction :=
  let i := instrOf l.mnemonic (l.mcs.getD .bpsk_1_2) (l.reg.getD .bw)
  if fieldsAllowed l && i.isWellFormed then
    some { cmd := encode i, a0 := l.a0.getD 0, a1 := l.a1.getD 0, din := l.din.getD .none }
  else none

/-- A `bytes"..."` payload is `bits_of(bytes)` (R70). -/
def bytesPayload (bytes : List Byte) : Payload := .bits (bitsOf bytes)

/-- The pseudo-instruction CONFIGURE (R71). -/
def configure (bw fft gnum gden frame : Word) : List AsmLine :=
  [{ mnemonic := .cfgWr, reg := some .bw, a0 := some bw },
   { mnemonic := .cfgWr, reg := some .fft, a0 := some fft },
   { mnemonic := .cfgWr, reg := some .gnum, a0 := some gnum },
   { mnemonic := .cfgWr, reg := some .gden, a0 := some gden },
   { mnemonic := .cfgWr, reg := some .frameCode, a0 := some frame },
   { mnemonic := .timingInit }]

/-- The pseudo-instruction READ_STATUS (R71). -/
def readStatus : List AsmLine := [{ mnemonic := .cfgRd, reg := some .status }]

/-- A program is a finite sequence of transactions (70_reset_and_hazards.md R180): the events a list of lines presents;
a rejected line presents nothing. -/
def program (lines : List AsmLine) : List HostEvent := (lines.filterMap assemble).map .present

end Sys2Proof.Machine
end

