-- ==== Sys2Proof/Machine/Parametric.lean ====
section
/-! DEFINITION. The WFB with any parameters. 00_scope.md R8 has a model take each parameter as an argument: these are
the commands, the step and the machine of a WFB built with the parameters `P`. `exec`, `step` and `core` are the case
`P = params` (log entry 4). CFG_WR and BQ_CLEAR read no parameter. -/

namespace Sys2Proof.Machine

/-- Run the rule of one command with the parameters `P` (60_exceptions.md R144). -/
def execWith (P : Params) (i : Instr) (s : State) : Answer :=
  match i with
  | .cfgWr reg => execCfgWr reg s
  | .cfgRd reg => cfgRdCmd P reg s
  | .mcsInfo mcs => mcsInfoCmd P mcs s
  | .blockPlan mcs => blockPlanCmd P mcs s
  | .serialize => serializeCmd P s
  | .deserialize => deserializeCmd P s
  | .segment => segmentCmd P s
  | .reassemble => reassembleCmd P s
  | .bqPush => bqPushCmd P s
  | .bqClear => execBqClear s
  | .timingInit => timingInitCmd P s
  | .dataRate mcs => dataRateCmd P mcs s
  | .blockTime mcs => blockTimeCmd P mcs s
  | .burstTime mcs => burstTimeCmd P mcs s
  | .nrSymbols mcs => nrSymbolsCmd P mcs s
  | .nrBytes mcs => nrBytesCmd P mcs s

/-- One step of the WFB with the parameters `P`: the next host event (R144; 70_reset_and_hazards.md R163). -/
def stepWith (P : Params) (s : State) : Answer := takeEvent (execWith P) s

/-- The WFB with the parameters `P`. A reset does not change the parameters (70_reset_and_hazards.md R163), so every WFB
has the same state after it. -/
def coreWith (P : Params) : Host.Core :=
  { State := State, Fault := Fault, Refusal := Refusal, step := stepWith P, reset := State.reset }

end Sys2Proof.Machine
end

