-- ==== Sys2Proof/Safety.lean ====
section
/-! DEFINITION. The terms claims use: well-formed bursts (00_scope.md R14), usable configurations (10_state.md R19;
44_timing.md R126), the invariant of the machine between transactions, and the frames of the commands. -/

namespace Sys2Proof.Machine

/-! ### Well-formed bursts -/

/-- The length field of a whole packet, from its own bytes 1 and 2 (30_encoding.md R66). -/
def packetLength (lenHiBits : Nat) (p : Packet) : Nat := lengthField lenHiBits (byteAt p 1) (byteAt p 2)

/-- The two header shapes with their sizes (R14). -/
def WellFormedPacket (lenHiBits : Nat) (p : Packet) : Prop :=
  (headerType (byteAt p 0) = true ∧ p.length = 6) ∨
    (headerType (byteAt p 0) = false ∧ 3 ≤ p.length ∧ packetLength lenHiBits p = p.length)

/-- `WF(burst)` (R14). -/
def WellFormedBurst (lenHiBits : Nat) (b : Burst) : Prop := ∀ p ∈ b, WellFormedPacket lenHiBits p

/-! ### Usable configurations -/

/-- The configurations TIMING_INIT accepts with the default parameters, in the words of R19 and R126: `FFT` and `G` in
range, a bandwidth that some key divides, and one of the frame codes 0 to 6 of R122. -/
structure UsableConfig (c : Cfg) : Prop where
  bw_pos : 1 ≤ c.bw.toNat
  fft_range : 256 ≤ c.fft.toNat ∧ c.fft.toNat ≤ 1024
  gden_pos : 1 ≤ c.gden.toNat
  g_le_one : c.gnum.toNat ≤ c.gden.toNat
  key : ∃ k ∈ [1750000, 1500000, 1250000, 2750000, 2000000], c.bw.toNat % k = 0
  code : c.frameCode.toNat ≤ 6

/-- The configurations TIMING_INIT accepts with the parameters `P` (R19, R126). -/
structure AcceptedConfig (P : Params) (c : Cfg) : Prop where
  bw_pos : 1 ≤ c.bw.toNat
  fft_range : 256 ≤ c.fft.toNat ∧ c.fft.toNat ≤ 1024
  gden_pos : 1 ≤ c.gden.toNat
  g_le_one : c.gnum.toNat ≤ c.gden.toNat
  key : ∃ k ∈ [1750000, 1500000, 1250000, 2750000, 2000000], c.bw.toNat % k = 0
  code : P.frameDur c.frameCode ≠ none
  fits : derivedFits (derived P c) = true

/-! ### The invariant -/

/-- What holds between any two transactions of a WFB with the parameters `P` that was reset once, where `accepted` says
which configurations TIMING_INIT latches. -/
structure InvOf (P : Params) (accepted : Cfg → Prop) (s : State) : Prop where
  /-- `|BQ| ≤ QDEPTH` (10_state.md R15, R24). -/
  queue_bounded : s.bq.length ≤ P.qdepth
  /-- Every entry is a Block (R23). -/
  blocks_sized : ∀ blk ∈ s.bq, 1 ≤ blk.length ∧ blk.length ≤ P.maxBlockBits
  /-- No reserved CERR code (60_exceptions.md R153). -/
  cerr_assigned : s.cerr.toNat ≤ 0x0B
  /-- No reserved FCAUSE code (60_exceptions.md R150). -/
  fcause_assigned : s.fcause.toNat ≤ 0x07
  /-- FCAUSE is 0 exactly when not halted (R21). -/
  fcause_iff : s.halted = false ↔ s.fcause = 0
  /-- A fatal clears CERR (60_exceptions.md R148). -/
  halted_cerr : s.halted = true → s.cerr = 0
  /-- While `TV = 1` the snapshot is the configuration (R22; 40_config.md R74). -/
  snapshot_current : s.tv = true → s.tcfg = s.cfg
  /-- While `TV = 1` the snapshot is one TIMING_INIT accepts (44_timing.md R126). -/
  snapshot_usable : s.tv = true → accepted s.tcfg
  /-- No operand is kept between transactions (R16, R25; the port is the model's, log entry 1). -/
  port_idle : s.a0 = 0 ∧ s.a1 = 0 ∧ s.din = .none

/-- The invariant of this machine (log entries 1, 4 and 6). -/
abbrev Inv (s : State) : Prop := InvOf params UsableConfig s

/-- The invariant of a WFB with the parameters `P`. -/
abbrev InvWith (P : Params) (s : State) : Prop := InvOf P (AcceptedConfig P) s

/-! ### How a command ends, in exact values -/

/-- The command completes from `s'`: the four result registers hold these exact values, which fit them, and CERR is 0
(10_state.md R17; 60_exceptions.md R144). -/
def CompletesWith (a : Answer) (s' : State) (dout : Payload) (v0 v1 v2 v3 : Nat) : Prop :=
  (v0 < 2 ^ 64 ∧ v1 < 2 ^ 64 ∧ v2 < 2 ^ 64 ∧ v3 < 2 ^ 64) ∧
    a = .next
      { s' with
        r := { r0 := BitVec.ofNat 64 v0, r1 := BitVec.ofNat 64 v1, r2 := BitVec.ofNat 64 v2, r3 := BitVec.ofNat 64 v3 }
        dout := dout
        cerr := 0 }

/-- The command ends in a command error with this code, and nothing else happens (60_exceptions.md R152). -/
def FailsWith (a : Answer) (s : State) (code : Byte) : Prop :=
  a = .next { s with cerr := code, r := { r0 := 0, r1 := 0, r2 := 0, r3 := 0 }, dout := .none }

/-- The command ends in a fatal with this cause, and nothing else happens (60_exceptions.md R148). -/
def HaltsWith (a : Answer) (s : State) (cause : Byte) : Prop :=
  a = .next { s with halted := true, fcause := cause, cerr := 0, dout := .none }

/-! ### The timing formulas in closed form -/

/-- The default sampling factor of a bandwidth, in the listed precedence (44_timing.md R119, R120). -/
def factorOf (bw : Nat) : Rat :=
  if bw % 1750000 = 0 then 8 / 7
  else if bw % 1500000 = 0 then 86 / 75
  else if bw % 1250000 = 0 then 144 / 125
  else if bw % 2750000 = 0 then 316 / 275
  else 57 / 50

/-- The default frame duration of a code 0 to 6, in seconds (R122). -/
def frameSeconds (code : Nat) : Rat := [1 / 400, 1 / 250, 1 / 200, 1 / 125, 1 / 100, 1 / 80, 1 / 50].getD code 0

/-- `Fs = n × BW` (R121). -/
def samplingHz (c : Cfg) : Rat := factorOf c.bw.toNat * c.bw.toNat

/-- `1 + G`. -/
def onePlusG (c : Cfg) : Rat := 1 + (c.gnum.toNat : Rat) / c.gden.toNat

/-- `Ts = (1 + G) × FFT / (n × BW)` (R121). -/
def symbolSeconds (c : Cfg) : Rat := onePlusG c * c.fft.toNat / samplingHz c

/-- A duration in ticks of 1 ns, rounded down (R125 with the default `TICKS_PER_SECOND`). -/
def nanos (t : Rat) : Nat := ⌊t * 1000000000⌋₊

/-! ### Scans -/

/-- A recovered packet in front of the scan of the rest. -/
def prependPacket (p : Packet) : ScanResult → ScanResult
  | .ok pkts pos padded => .ok (p :: pkts) (p.length + pos) padded
  | .err e => .err e

/-! ### Frames -/

/-- `t` is `s` but for how a command ended: results, DOUT and STATUS. -/
def SameButEnding (s t : State) : Prop :=
  t = { s with r := t.r, dout := t.dout, cerr := t.cerr, halted := t.halted, fcause := t.fcause }

/-- The commands that change nothing but results and STATUS (20_memory.md R46). -/
def readsOnly : Instr → Bool
  | .cfgWr _ => false
  | .cfgRd _ => true
  | .mcsInfo _ => true
  | .blockPlan _ => true
  | .serialize => true
  | .deserialize => true
  | .segment => false
  | .reassemble => false
  | .bqPush => false
  | .bqClear => false
  | .timingInit => false
  | .dataRate _ => true
  | .blockTime _ => true
  | .burstTime _ => true
  | .nrSymbols _ => true
  | .nrBytes _ => true

/-- The commands that may change the block queue (10_state.md R24). -/
def changesQueue : Instr → Bool
  | .cfgWr _ => false
  | .cfgRd _ => false
  | .mcsInfo _ => false
  | .blockPlan _ => false
  | .serialize => false
  | .deserialize => false
  | .segment => true
  | .reassemble => true
  | .bqPush => true
  | .bqClear => true
  | .timingInit => false
  | .dataRate _ => false
  | .blockTime _ => false
  | .burstTime _ => false
  | .nrSymbols _ => false
  | .nrBytes _ => false

end Sys2Proof.Machine
end

