-- ==== Sys2Proof/Certificates/Slice0/Obligations.lean ====
section
/-! DEFINITION. The statements about the WFB model, each read from the rules of spec/ its docstring names. -/

open Sys2Proof Sys2Proof.Machine

/-! ### Encoding -/

/-- Decoding and encoding are inverse on all 2^32 words: a word decodes to `i` exactly when `i` is well formed and the
word is its encoding (30_encoding.md R57, R61 to R63). -/
def Obligations.DecodeExactlyInvertsEncode : Prop :=
  ∀ (w : Word) (i : Instr), decode w = .ok i ↔ i.WellFormed ∧ encode i = w

/-- The decoder accepts a word as an opcode exactly when the word matches that opcode's mask and match and its register
index is assigned, and writable for CFG_WR (R55, R61). -/
def Obligations.LegalWordsAreTableMatches : Prop :=
  ∀ (w : Word) (mn : Mnemonic),
    (∃ i, decode w = .ok i ∧ mnemonicOf i = mn) ↔
      matchesOpcode mn w = true ∧
      (mn = .cfgWr → w.toNat % 256 ≤ 0x04) ∧
      (mn = .cfgRd → w.toNat % 256 ≤ 0x04 ∨ w.toNat % 256 = 0x10 ∨ w.toNat % 256 = 0x11 ∨
        (0x20 ≤ w.toNat % 256 ∧ w.toNat % 256 ≤ 0x2A))

/-- The example words of R72, each decoded as its row says. -/
def Obligations.ExampleWordsDecode : Prop :=
  (∀ p ∈ ([(0x01000000, .cfgWr .bw), (0x01000004, .cfgWr .frameCode), (0x02000010, .cfgRd .status),
      (0x02000026, .cfgRd .tsTicks), (0x10010000, .mcsInfo .qpsk_1_2), (0x11010000, .blockPlan .qpsk_1_2),
      (0x11060000, .blockPlan .qam64_3_4), (0x20000000, .serialize), (0x21000000, .deserialize),
      (0x30000000, .segment), (0x31000000, .reassemble), (0x32000000, .bqPush), (0x33000000, .bqClear),
      (0x40000000, .timingInit), (0x41000000, .dataRate .bpsk_1_2), (0x42010000, .blockTime .qpsk_1_2),
      (0x43010000, .burstTime .qpsk_1_2), (0x44040000, .nrSymbols .qam16_3_4), (0x45050000, .nrBytes .qam64_2_3),
      (0x41070000, .dataRate .code7)] : List (Word × Instr)), decode p.1 = .ok p.2) ∧
  (∀ s, HaltsWith (exec (.dataRate .code7) s) s 0x01) ∧
  decode 0x01000005 = .error .unassignedReg ∧
  decode 0x20010000 = .error .unusedFieldNotZero

/-- The assembler never makes an illegal word, makes the mnemonic it was given, and can make every legal word but those
with the unnamed MCS code 7 (30_encoding.md R70). -/
def Obligations.AssemblerMakesOnlyLegalWords : Prop :=
  (∀ l x, assemble l = some x → ∃ i, decode x.cmd = .ok i ∧ mnemonicOf i = l.mnemonic ∧
    x.a0 = l.a0.getD 0 ∧ x.a1 = l.a1.getD 0 ∧ x.din = l.din.getD .none) ∧
  (∀ w i, decode w = .ok i → (∀ mk ∈ [Instr.mcsInfo, .blockPlan, .dataRate, .blockTime, .burstTime, .nrSymbols,
      .nrBytes], i ≠ mk .code7) → ∃ l x, assemble l = some x ∧ x.cmd = w)

/-! ### The step -/

/-- A step runs the decoded command on the transaction's operands; then the operands are gone and one more transaction
is completed (60_exceptions.md R144; 10_state.md R16, R18, R25). The port fields are the model's own (log entries 1
and 3). -/
def Obligations.StepRunsTheDecodedCommand : Prop :=
  ∀ (s u : State) (x : Transaction) (rest : List HostEvent) (i : Instr),
    s.halted = false → s.inbox = .present x :: rest → decode x.cmd = .ok i →
    exec i { s with inbox := rest, a0 := x.a0, a1 := x.a1, din := x.din } = .next u →
    i.WellFormed ∧ step s = .next { u with a0 := 0, a1 := 0, din := .none, completed := u.completed + 1 }

/-- An illegal command word halts the machine with ILLEGAL_COMMAND, whatever the operands, and changes nothing else of
the state of 10_state.md R15 (60_exceptions.md R148, R149). That the operands are then gone and the transaction is
counted are the model's (log entries 1 and 3). -/
def Obligations.IllegalWordHalts : Prop :=
  ∀ (s : State) (x : Transaction) (rest : List HostEvent) (e : IllegalWord),
    s.halted = false → s.inbox = .present x :: rest → decode x.cmd = .error e →
    step s = .next { s with
      inbox := rest, halted := true, fcause := 0x05, cerr := 0, dout := .none, a0 := 0, a1 := 0, din := .none,
      completed := s.completed + 1 }

/-- While halted, any number of transactions leave the state as it is; each response is the halted STATUS, the unchanged
results and DOUT NONE (60_exceptions.md R145). That the transactions leave the inbox and are not counted are the model's
(log entries 1 and 3). -/
def Obligations.HaltedMachineIsStuck : Prop :=
  ∀ (ts : List Transaction) (s : State) (rest : List HostEvent),
    s.halted = true → ts ≠ [] → s.inbox = ts.map .present ++ rest →
    ∃ t : State, Host.Core.run core ts.length s = .next t ∧ t = { s with inbox := rest, dout := .none } ∧
      response t = { status := statusWord s, r := s.r, dout := .none }

/-- A halted machine leaves its state only by a reset: every other step keeps HALTED, the cause and everything else of
10_state.md R15 (60_exceptions.md R156; 70_reset_and_hazards.md R164). That the step takes the event from the inbox, that
an idle step changes nothing and that the count stays are the model's (log entries 1, 2 and 3). -/
def Obligations.OnlyResetLeavesTheHalt : Prop :=
  ∀ s t : State, s.halted = true → step s = .next t → (∀ rest, s.inbox ≠ .reset :: rest) →
    t = { s with inbox := s.inbox.tail, dout := t.dout }

/-- A reset event, from any state, puts every piece of the state of 10_state.md R15 to its reset value
(70_reset_and_hazards.md R163, R164). That it is an event in the inbox and keeps what the host presented after it is the
model's (log entries 1 and 12). -/
def Obligations.ResetEventRestores : Prop :=
  ∀ (s : State) (rest : List HostEvent), s.inbox = .reset :: rest →
    ∃ t, step s = .next t ∧ t.inbox = rest ∧
      t.cfg = { bw := 0, fft := 0, gnum := 0, gden := 0, frameCode := 0 } ∧ t.tv = false ∧
      t.tcfg = { bw := 0, fft := 0, gnum := 0, gden := 0, frameCode := 0 } ∧
      t.r = { r0 := 0, r1 := 0, r2 := 0, r3 := 0 } ∧
      t.halted = false ∧ t.cerr = 0 ∧ t.fcause = 0 ∧ t.bq = []

/-- The reset values of the table of 10_state.md R30. -/
def Obligations.ResetStateHoldsTheTable : Prop :=
  State.reset.cfg = { bw := 0, fft := 0, gnum := 0, gden := 0, frameCode := 0 } ∧
  State.reset.tv = false ∧
  State.reset.tcfg = { bw := 0, fft := 0, gnum := 0, gden := 0, frameCode := 0 } ∧
  State.reset.r = { r0 := 0, r1 := 0, r2 := 0, r3 := 0 } ∧
  State.reset.halted = false ∧ State.reset.cerr = 0 ∧ State.reset.fcause = 0 ∧
  State.reset.bq = [] ∧ bqLevel State.reset = 0

/-- Every command and every step answers a next state: no command waits, faults or is refused (60_exceptions.md
R144). -/
def Obligations.EveryStepAnswersNext : Prop :=
  (∀ (i : Instr) (s : State), ∃ t, exec i s = .next t) ∧ ∀ s : State, ∃ t, step s = .next t

/-! ### Failures -/

/-- A fatal is precise: the state of 10_state.md R15 after it is the state before and the three STATUS writes of R148
(60_exceptions.md R151). That the transaction and its operands leave the port and that it is counted are the model's (log
entries 1 and 3). -/
def Obligations.FatalIsPrecise : Prop :=
  ∀ s t : State, s.halted = false → step s = .next t → t.halted = true →
    t = { s with
      halted := true, fcause := t.fcause, cerr := 0, dout := .none, inbox := s.inbox.tail, a0 := 0, a1 := 0,
      din := .none, completed := s.completed + 1 } ∧
    1 ≤ t.fcause.toNat ∧ t.fcause.toNat ≤ 7

/-- A command error is precise: CERR holds an assigned code, the results are 0, DOUT is NONE, and nothing else of the
state of 10_state.md R15 changed (60_exceptions.md R152, R155). That the transaction and its operands leave the port and
that it is counted are the model's (log entries 1 and 3). -/
def Obligations.CommandErrorIsPrecise : Prop :=
  ∀ (s t : State) (x : Transaction) (rest : List HostEvent),
    s.halted = false → s.inbox = .present x :: rest → step s = .next t → t.cerr ≠ 0 →
    t = { s with
      cerr := t.cerr, r := { r0 := 0, r1 := 0, r2 := 0, r3 := 0 }, dout := .none, inbox := rest, a0 := 0, a1 := 0,
      din := .none, completed := s.completed + 1 } ∧
    t.cerr.toNat ≤ 0x0B

/-- Every class M command with MCS code 7 halts with UNKNOWN_MCS, whatever TV and the operands are, and code 7 selects
no row of any table (41_mcs_table.md R84). -/
def Obligations.UnknownMcsHalts : Prop :=
  (∀ P : Params, mcsRow P .code7 = none) ∧
  ∀ (s : State), ∀ mk ∈ [Instr.mcsInfo, .blockPlan, .dataRate, .blockTime, .burstTime, .nrSymbols, .nrBytes],
    HaltsWith (exec (mk .code7) s) s 0x01

/-- Every timing command with a known MCS and `TV = 0` halts with NOT_CONFIGURED (44_timing.md R127). -/
def Obligations.TimingNeedsInit : Prop :=
  ∀ (s : State) (m : McsCode), m ≠ .code7 → s.tv = false →
    ∀ i ∈ [Instr.dataRate m, .blockTime m, .burstTime m, .nrSymbols m, .nrBytes m], HaltsWith (exec i s) s 0x06

/-- A payload of the wrong kind is the first error of every command that needs one (10_state.md R25). -/
def Obligations.WrongPayloadKindFails : Prop :=
  ∀ s : State,
    ((∀ b, s.din ≠ .burst b) → FailsWith (exec .serialize s) s 0x0B) ∧
    ((∀ b, s.din ≠ .bits b) → ∀ i ∈ [Instr.deserialize, .segment, .bqPush], FailsWith (exec i s) s 0x0B)

/-- A burst over `MAX_BURST_BYTES` is refused with TOO_LARGE by SERIALIZE, DESERIALIZE and SEGMENT (60_exceptions.md
R153, with the default limit of 00_scope.md R8; log entry 4). -/
def Obligations.OversizedBurstFails : Prop :=
  (∀ s b, s.din = .burst b → (b.map List.length).sum > 2 ^ 32 - 1 → FailsWith (exec .serialize s) s 0x0A) ∧
  (∀ s bits, s.din = .bits bits → bits.length % 8 = 0 → bits.length > 8 * (2 ^ 32 - 1) →
    FailsWith (exec .deserialize s) s 0x0A) ∧
  (∀ s bits, s.din = .bits bits → 1 ≤ s.a0.toNat → s.a0.toNat ≤ 864 → bits.length > 8 * (2 ^ 32 - 1) →
    FailsWith (exec .segment s) s 0x0A)

/-! ### Invariants and frames -/

/-- Every step keeps the invariant (10_state.md R15, R21 to R24; 60_exceptions.md R148, R150, R153; 40_config.md R74).
With the default parameters (log entries 4 and 6); the port's clause is the model's (log entry 1). -/
def Obligations.StepKeepsInvariant : Prop :=
  ∀ s t : State, Inv s → step s = .next t → Inv t

/-- The invariant holds at reset. With the default parameters (log entries 4 and 6); the port's clause is the model's
(log entry 1). -/
def Obligations.ResetMeetsInvariant : Prop := Inv State.reset

/-- STATUS is packed as R21 and R76 lay it out, with its reserved bits 0. -/
def Obligations.StatusWordLayout : Prop :=
  ∀ s : State,
    (statusWord s).toNat = s.halted.toNat + 2 * s.tv.toNat + 256 * s.cerr.toNat + 65536 * s.fcause.toNat

/-- The ten reading commands change only results, DOUT and STATUS (20_memory.md R44, R46). -/
def Obligations.ReadingCommandsFrame : Prop :=
  ∀ (i : Instr) (s t : State), readsOnly i = true → exec i s = .next t → SameButEnding s t

/-- Who changes the configuration and the snapshot: CFG only by CFG_WR, which clears TV when it succeeds; TCFG only by
TIMING_INIT, which alone sets TV (10_state.md R22; 20_memory.md R44); and no command touches the port's inputs, which are
the model's (log entries 1 and 3). -/
def Obligations.ConfigurationFrame : Prop :=
  ∀ (i : Instr) (s t : State), exec i s = .next t →
    (t.cfg ≠ s.cfg → ∃ reg, i = .cfgWr reg) ∧
    (∀ reg, i = .cfgWr reg → reg.isWritable = true → t.cerr = 0 → t.tv = false) ∧
    (t.tcfg ≠ s.tcfg → i = .timingInit) ∧
    (s.tv = false → t.tv = true → i = .timingInit ∧ t.tcfg = s.cfg) ∧
    (t.tv = false → s.tv = true → ∃ reg, i = .cfgWr reg) ∧
    t.a0 = s.a0 ∧ t.a1 = s.a1 ∧ t.din = s.din ∧ t.inbox = s.inbox ∧ t.completed = s.completed

/-- The queue is FIFO across all commands: blocks leave only from the head and enter only at the tail, only the
segmenter's four commands touch it, and what REASSEMBLE pops it emits in queue order (43_segmenter.md R114). -/
def Obligations.QueueIsFifo : Prop :=
  ∀ (i : Instr) (s t : State), exec i s = .next t →
    ∃ (c : Nat) (new : List Block), t.bq = s.bq.drop c ++ new ∧
      (changesQueue i = false → c = 0 ∧ new = []) ∧
      (i = .segment ∨ i = .bqPush → c = 0) ∧
      (i = .reassemble ∨ i = .bqClear → new = []) ∧
      (i = .reassemble → 0 < c → c = s.a0.toNat ∧ t.dout = .bits (s.bq.take c).flatten)

/-! ### Configuration family -/

/-- CFG_WR of a value that fits writes that register alone, clears TV and zeroes the results (40_config.md R73). -/
def Obligations.CfgWrWritesTheRegister : Prop :=
  ∀ (s : State), ∀ p ∈ ([(.bw, 2 ^ 32, { s.cfg with bw := s.a0 }),
      (.fft, 2 ^ 16, { s.cfg with fft := s.a0.setWidth 16 }),
      (.gnum, 2 ^ 16, { s.cfg with gnum := s.a0.setWidth 16 }),
      (.gden, 2 ^ 16, { s.cfg with gden := s.a0.setWidth 16 }),
      (.frameCode, 2 ^ 8, { s.cfg with frameCode := s.a0.setWidth 8 })] : List (Reg × Nat × Cfg)),
    s.a0.toNat < p.2.1 →
    CompletesWith (exec (.cfgWr p.1) s) { s with cfg := p.2.2, tv := false } .none 0 0 0 0

/-- CFG_WR of a value wider than the register fails with OPERAND_RANGE; a read-only register, which no legal word names
here, is ILLEGAL_COMMAND (40_config.md R73; log entry 10). -/
def Obligations.CfgWrRefuses : Prop :=
  ∀ (s : State),
    (∀ reg ∈ [Reg.fft, .gnum, .gden], 2 ^ 16 ≤ s.a0.toNat → FailsWith (exec (.cfgWr reg) s) s 0x08) ∧
    (2 ^ 8 ≤ s.a0.toNat → FailsWith (exec (.cfgWr .frameCode) s) s 0x08) ∧
    (∀ reg : Reg, reg.isWritable = false → HaltsWith (exec (.cfgWr reg) s) s 0x05)

/-- CFG_RD of the stored registers, of STATUS as the previous command left it, of the queue level, and of every derived
register while `TV = 0` (40_config.md R75, R76). That BQ_LEVEL, a 32-bit register, reads its exact level from 2^32 up, and
RESULT_RANGE from 2^64 up, is the model's choice (log entry 5). -/
def Obligations.CfgRdReadsStoredRegisters : Prop :=
  ∀ (s : State),
    (∀ p ∈ ([(.bw, s.cfg.bw.toNat), (.fft, s.cfg.fft.toNat), (.gnum, s.cfg.gnum.toNat), (.gden, s.cfg.gden.toNat),
        (.frameCode, s.cfg.frameCode.toNat),
        (.status, s.halted.toNat + 2 * s.tv.toNat + 256 * s.cerr.toNat + 65536 * s.fcause.toNat)] :
        List (Reg × Nat)), CompletesWith (exec (.cfgRd p.1) s) s .none p.2 0 0 0) ∧
    (s.bq.length < 2 ^ 64 → CompletesWith (exec (.cfgRd .bqLevel) s) s .none s.bq.length 0 0 0) ∧
    (2 ^ 64 ≤ s.bq.length → FailsWith (exec (.cfgRd .bqLevel) s) s 0x09) ∧
    (s.tv = false → ∀ reg ∈ [Reg.sfNum, .sfDen, .fsHz, .spacingHz, .tbTicks, .tgTicks, .tsTicks, .psTicks, .psPerSym,
      .frameTicks, .symPerFrame], CompletesWith (exec (.cfgRd reg) s) s .none 0 0 0 0)

/-- CFG_RD of the derived registers while `TV = 1`, in the closed forms of 44_timing.md R119 to R122 over TCFG, with the
default tables (40_config.md R76; log entries 4 and 6). -/
def Obligations.CfgRdReadsDerivedRegisters : Prop :=
  ∀ (s : State), s.tv = true → UsableConfig s.tcfg →
    ∀ p ∈ ([(.sfNum, (factorOf s.tcfg.bw.toNat).num.toNat), (.sfDen, (factorOf s.tcfg.bw.toNat).den),
        (.fsHz, ⌊samplingHz s.tcfg⌋₊), (.spacingHz, ⌊samplingHz s.tcfg / s.tcfg.fft.toNat⌋₊),
        (.tbTicks, nanos (s.tcfg.fft.toNat / samplingHz s.tcfg)),
        (.tgTicks, nanos ((s.tcfg.gnum.toNat : Rat) / s.tcfg.gden.toNat * (s.tcfg.fft.toNat / samplingHz s.tcfg))),
        (.tsTicks, nanos (symbolSeconds s.tcfg)), (.psTicks, nanos (4 / samplingHz s.tcfg)),
        (.psPerSym, ⌊onePlusG s.tcfg * s.tcfg.fft.toNat / 4⌋₊),
        (.frameTicks, nanos (frameSeconds s.tcfg.frameCode.toNat)),
        (.symPerFrame, ⌊frameSeconds s.tcfg.frameCode.toNat / symbolSeconds s.tcfg⌋₊)] : List (Reg × Nat)),
    CompletesWith (exec (.cfgRd p.1) s) s .none p.2 0 0 0

/-! ### MCS family -/

/-- MCS_INFO returns the rows of the default table (41_mcs_table.md R82, R87), and the rows carry the bits per symbol of
44_timing.md R123 (log entry 6: the table's values are the spec's defaults). -/
def Obligations.McsInfoReturnsTheRow : Prop :=
  ∀ (s : State), ∀ p ∈ ([(.bpsk_1_2, 1, 1, 2, 12, 24, 96), (.qpsk_1_2, 2, 1, 2, 24, 48, 192),
      (.qpsk_3_4, 2, 3, 4, 36, 48, 288), (.qam16_1_2, 4, 1, 2, 48, 96, 384), (.qam16_3_4, 4, 3, 4, 72, 96, 576),
      (.qam64_2_3, 6, 2, 3, 96, 144, 768), (.qam64_3_4, 6, 3, 4, 108, 144, 864)] :
      List (McsCode × Nat × Nat × Nat × Nat × Nat × Nat)),
    let (m, bps, num, den, payload, coded, perSymbol) := p
    CompletesWith (exec (.mcsInfo m) s) s .none bps (num * 256 + den) payload coded ∧
    ∃ row, mcsRow params m = some row ∧ bitsPerSymbol row = perSymbol

/-- BLOCK_PLAN satisfies the source's invariants for every burst size and MCS (41_mcs_table.md R91): enough blocks, the
padding exact and less than a block, the count the ceiling, and the burst complete after that many blocks.
With the default parameters (log entry 4). -/
def Obligations.BlockPlanIsExact : Prop :=
  ∀ (s : State) (m : McsCode) (row : McsRow), mcsRow params m = some row →
    ∃ nb pad : Nat,
      CompletesWith (exec (.blockPlan m) s) s .none (8 * row.payloadBytes) nb pad (8 * s.a0.toNat) ∧
      nb * (8 * row.payloadBytes) ≥ 8 * s.a0.toNat ∧
      pad = nb * (8 * row.payloadBytes) - 8 * s.a0.toNat ∧
      nb = ⌈(s.a0.toNat * 8 : Rat) / (8 * row.payloadBytes : Rat)⌉₊ ∧
      nb * (8 * row.payloadBytes) = 8 * s.a0.toNat + pad ∧
      pad < 8 * row.payloadBytes ∧ pad % 8 = 0

/-- The block-accounting check never holds, so with any legal parameters BLOCK_PLAN never raises BLOCK_ACCOUNTING, and no
step of the machine does (41_mcs_table.md R90). -/
def Obligations.BlockAccountingNeverFires : Prop :=
  (∀ bits bs : Nat, 0 < bs → ¬ ceilDiv bits bs * bs < bits) ∧
  (∀ (P : Params), P.Legal → ∀ (m : McsCode) (s t : State), blockPlanCmd P m s = .next t → s.fcause ≠ 0x02 →
    t.fcause ≠ 0x02) ∧
  ∀ s t : State, step s = .next t → s.fcause ≠ 0x02 → t.fcause ≠ 0x02

/-! ### Bit codec family -/

/-- `bits_of` and `bytes_of` are the MSB-first conversions of 20_memory.md R38, bit for bit, and `bytes_of` undoes
`bits_of`. -/
def Obligations.BitOrderIsMsbFirst : Prop :=
  (∀ B : List Byte, (bitsOf B).length = 8 * B.length ∧
    (∀ j k, j < B.length → k < 8 → (bitsOf B)[8 * j + k]? = some ((B.getD j 0).getLsbD (7 - k))) ∧
    bytesOf (bitsOf B) = B) ∧
  ∀ s : Bits, s.length % 8 = 0 → (bytesOf s).length = s.length / 8 ∧
    ∀ k < s.length / 8, ((bytesOf s).getD k 0).toNat =
      ∑ j ∈ Finset.range 8, (s.getD (8 * k + j) false).toNat * 2 ^ (7 - j)

/-- The length field is big-endian, its high part the low `LEN_HI_BITS` bits of byte 1; a fourth high bit adds 2048 and
nothing else (30_encoding.md R66; 42_bit_codec.md R102). -/
def Obligations.LengthFieldIsBigEndian : Prop :=
  ∀ b1 b2 : Byte,
    lengthField 3 b1 b2 = b1.toNat % 8 * 256 + b2.toNat ∧
    lengthField 4 b1 b2 = b1.toNat % 16 * 256 + b2.toNat ∧
    lengthField 4 b1 b2 = lengthField 3 b1 b2 + if b1.getLsbD 3 then 2048 else 0

/-- SERIALIZE emits the packets' bytes in order, each MSB-first, and counts bits, packets and bytes (42_bit_codec.md
R93, R94; 20_memory.md R39). With the default parameters (log entry 4). -/
def Obligations.SerializeEmitsTheBits : Prop :=
  ∀ (s : State) (b : Burst), s.din = .burst b → (b.map List.length).sum ≤ 2 ^ 32 - 1 →
    ∃ (t : State) (bits : Bits), exec .serialize s = .next t ∧
      t = { s with r := t.r, dout := .bits bits, cerr := 0 } ∧
      bits.length = 8 * (b.map List.length).sum ∧
      (∀ j k, j < b.flatten.length → k < 8 → bits[8 * j + k]? = some ((b.flatten.getD j 0).getLsbD (7 - k))) ∧
      t.r.r0.toNat = 8 * (b.map List.length).sum ∧
      (b.length < 2 ^ 64 → t.r.r1.toNat = b.length) ∧
      t.r.r2.toNat = (b.map List.length).sum ∧ t.r.r3 = 0

/-- The scan, packet by packet, for any length-field width: every way the first header can read, and the scan of what
follows it (42_bit_codec.md R97, R100; 30_encoding.md R68). -/
def Obligations.ScanFollowsTheHeaders : Prop :=
  ∀ hi : Nat, scan hi [] = .ok [] 0 false ∧
    ∀ buf : List Byte, buf ≠ [] →
      (headerType (byteAt buf 0) = true → buf.length < 6 → scan hi buf = .err .deserOverrun) ∧
      (headerType (byteAt buf 0) = true → 6 ≤ buf.length →
        scan hi buf = prependPacket (buf.take 6) (scan hi (buf.drop 6))) ∧
      (headerType (byteAt buf 0) = false → buf.length < 3 → scan hi buf = .err .deserHdrTrunc) ∧
      (headerType (byteAt buf 0) = false → 3 ≤ buf.length → packetLength hi buf = 0 →
        scan hi buf = .ok [] 0 true) ∧
      (headerType (byteAt buf 0) = false → 3 ≤ buf.length → packetLength hi buf > buf.length →
        scan hi buf = .err .deserOverrun) ∧
      (headerType (byteAt buf 0) = false → 3 ≤ buf.length → 1 ≤ packetLength hi buf →
        packetLength hi buf ≤ buf.length →
        scan hi buf = prependPacket (buf.take (packetLength hi buf)) (scan hi (buf.drop (packetLength hi buf))))

/-- DESERIALIZE of whole bytes whose scan succeeds emits the recovered packets; they are the buffer's bytes unchanged up
to where the scan stopped, which is the end unless a terminator stopped it (42_bit_codec.md R96, R101).
With the default parameters (log entries 4 and 7). -/
def Obligations.DeserializeEmitsThePackets : Prop :=
  ∀ (s : State) (bits : Bits) (pkts : Burst) (pos : Nat) (padded : Bool),
    s.din = .bits bits → bits.length % 8 = 0 → bits.length ≤ 8 * (2 ^ 32 - 1) →
    scan 3 (bytesOf bits) = .ok pkts pos padded →
    CompletesWith (exec .deserialize s) s (.burst pkts) pkts.length pos padded.toNat (bits.length / 8 - pos) ∧
    pkts.flatten = (bytesOf bits).take pos ∧ pos ≤ bits.length / 8 ∧
    (padded = false → pos = bits.length / 8) ∧ (∀ p ∈ pkts, p ≠ [])

/-- A failing scan returns nothing it had recovered: DOUT is NONE, the results are 0 and CERR says which failure; and a
bit count that is not whole bytes fails before any scan (42_bit_codec.md R96, R98).
With the default parameters (log entries 4 and 7). -/
def Obligations.DeserializeFailsWhole : Prop :=
  ∀ (s : State) (bits : Bits), s.din = .bits bits →
    (bits.length % 8 ≠ 0 → FailsWith (exec .deserialize s) s 0x01) ∧
    (∀ e, bits.length % 8 = 0 → bits.length ≤ 8 * (2 ^ 32 - 1) → scan 3 (bytesOf bits) = .err e →
      (e = .deserHdrTrunc ∧ FailsWith (exec .deserialize s) s 0x02) ∨
      (e = .deserOverrun ∧ FailsWith (exec .deserialize s) s 0x03))

/-- The round trip (42_bit_codec.md R103), for any parameters: DESERIALIZE of what SERIALIZE emitted for a well-formed
burst gives the burst back. `exec` is the case `P = params`. A total of 2^64 bytes or more would fit no R1. -/
def Obligations.RoundTripRecoversTheBurst : Prop :=
  ∀ (P : Params) (s : State) (b : Burst), WellFormedBurst P.lenHiBits b → 0 < (b.map List.length).sum →
    (b.map List.length).sum ≤ P.maxBurstBytes → (b.map List.length).sum < 2 ^ 64 →
    ∃ t u : State, serializeCmd P { s with din := .burst b } = .next t ∧
      deserializeCmd P { t with din := t.dout } = .next u ∧
      u.dout = .burst b ∧ u.r.r0.toNat = b.length ∧ u.r.r1.toNat = (b.map List.length).sum ∧ u.r.r2 = 0 ∧
      u.r.r3 = 0 ∧ u.cerr = 0

/-- The round trip through `k` zero bytes of padding: discarded when 3 or more, HDR_TRUNC when 1 or 2, exact when 0
(42_bit_codec.md R99, R104), for a total within `MAX_BURST_BYTES`.
With the default parameters (log entries 4 and 7). -/
def Obligations.PaddedRoundTrip : Prop :=
  ∀ (s : State) (b : Burst) (k : Nat), WellFormedBurst 3 b → (b.map List.length).sum + k ≤ 2 ^ 32 - 1 →
    s.din = .bits (bitsOf b.flatten ++ zeros (8 * k)) →
    (3 ≤ k → CompletesWith (exec .deserialize s) s (.burst b) b.length (b.map List.length).sum 1 k) ∧
    (k = 1 ∨ k = 2 → FailsWith (exec .deserialize s) s 0x02) ∧
    (k = 0 → CompletesWith (exec .deserialize s) s (.burst b) b.length (b.map List.length).sum 0 0)

/-! ### Segmenter family -/

/-- SEGMENT appends `⌈|s| / bs⌉` blocks of exactly `bs` bits that concatenate to the bits and the padding, and reports
count, padding and level (43_segmenter.md R105, R106). With the default parameters (log entry 4). -/
def Obligations.SegmentPushesTheBlocks : Prop :=
  ∀ (s : State) (bits : Bits), s.din = .bits bits → 1 ≤ s.a0.toNat → s.a0.toNat ≤ 864 →
    bits.length ≤ 8 * (2 ^ 32 - 1) → s.bq.length + ⌈(bits.length : Rat) / s.a0.toNat⌉₊ ≤ params.qdepth →
    ∃ (t : State) (blocks : List Block), exec .segment s = .next t ∧
      t = { s with bq := s.bq ++ blocks, r := t.r, dout := .none, cerr := 0 } ∧
      blocks.length = ⌈(bits.length : Rat) / s.a0.toNat⌉₊ ∧
      (∀ blk ∈ blocks, blk.length = s.a0.toNat) ∧
      blocks.flatten = bits ++ zeros (blocks.length * s.a0.toNat - bits.length) ∧
      t.r.r0.toNat = blocks.length ∧
      t.r.r1.toNat = blocks.length * s.a0.toNat - bits.length ∧
      (t.bq.length < 2 ^ 64 → t.r.r2.toNat = t.bq.length) ∧ t.r.r3 = 0

/-- SEGMENT refuses a bad block size, and is all or nothing when the queue has no room (43_segmenter.md R105, R107).
With the default parameters (log entry 4). -/
def Obligations.SegmentRefuses : Prop :=
  ∀ (s : State) (bits : Bits), s.din = .bits bits →
    (s.a0.toNat = 0 ∨ 864 < s.a0.toNat → FailsWith (exec .segment s) s 0x04) ∧
    (1 ≤ s.a0.toNat → s.a0.toNat ≤ 864 → bits.length ≤ 8 * (2 ^ 32 - 1) →
      params.qdepth < s.bq.length + ⌈(bits.length : Rat) / s.a0.toNat⌉₊ → FailsWith (exec .segment s) s 0x05)

/-- REASSEMBLE pops the first `A0` blocks, all `A1` bits long, and emits them head first (43_segmenter.md R108,
R109). With the default parameters (log entry 4). -/
def Obligations.ReassemblePopsTheBlocks : Prop :=
  ∀ s : State, 1 ≤ s.a1.toNat → s.a1.toNat ≤ 864 → s.a0.toNat ≤ s.bq.length →
    (∀ blk ∈ s.bq.take s.a0.toNat, blk.length = s.a1.toNat) →
    ∃ t : State, exec .reassemble s = .next t ∧
      t = { s with
        bq := s.bq.drop s.a0.toNat, r := t.r, dout := .bits (s.bq.take s.a0.toNat).flatten, cerr := 0 } ∧
      t.r.r0.toNat = s.a0.toNat * s.a1.toNat ∧
      (t.bq.length < 2 ^ 64 → t.r.r1.toNat = t.bq.length) ∧ t.r.r2 = 0 ∧ t.r.r3 = 0 ∧
      (s.bq.take s.a0.toNat).flatten.length = s.a0.toNat * s.a1.toNat

/-- REASSEMBLE's errors in their order: block size, underflow, size mismatch; no block is popped (43_segmenter.md
R108). With the default parameters (log entry 4). -/
def Obligations.ReassembleRefuses : Prop :=
  ∀ s : State,
    (s.a1.toNat = 0 ∨ 864 < s.a1.toNat → FailsWith (exec .reassemble s) s 0x04) ∧
    (1 ≤ s.a1.toNat → s.a1.toNat ≤ 864 →
      (s.bq.length < s.a0.toNat → FailsWith (exec .reassemble s) s 0x06) ∧
      (s.a0.toNat ≤ s.bq.length → (∃ blk ∈ s.bq.take s.a0.toNat, blk.length ≠ s.a1.toNat) →
        FailsWith (exec .reassemble s) s 0x07))

/-- BQ_PUSH appends one block of 1 to `MAX_BLOCK_BITS` bits, of any MCS's size or none; it refuses other sizes and a full
queue (43_segmenter.md R111, R112). With the default parameters (log entry 4). -/
def Obligations.BqPushAppendsOneBlock : Prop :=
  ∀ (s : State) (blk : Bits), s.din = .bits blk →
    (1 ≤ blk.length → blk.length ≤ 864 → s.bq.length < params.qdepth →
      ∃ t : State, exec .bqPush s = .next t ∧ t = { s with bq := s.bq ++ [blk], r := t.r, dout := .none, cerr := 0 } ∧
        (t.bq.length < 2 ^ 64 → t.r.r0.toNat = s.bq.length + 1) ∧ t.r.r1 = 0 ∧ t.r.r2 = 0 ∧ t.r.r3 = 0) ∧
    (blk.length = 0 ∨ 864 < blk.length → FailsWith (exec .bqPush s) s 0x04) ∧
    (1 ≤ blk.length → blk.length ≤ 864 → s.bq.length = params.qdepth → FailsWith (exec .bqPush s) s 0x05)

/-- BQ_CLEAR empties the queue and reports how many blocks it discarded (43_segmenter.md R113). -/
def Obligations.BqClearEmptiesTheQueue : Prop :=
  ∀ s : State, ∃ t : State, exec .bqClear s = .next t ∧ t = { s with bq := [], r := t.r, dout := .none, cerr := 0 } ∧
    (s.bq.length < 2 ^ 64 → t.r.r0.toNat = s.bq.length) ∧ t.r.r1 = 0 ∧ t.r.r2 = 0 ∧ t.r.r3 = 0

/-- The segment and reassemble law (43_segmenter.md R110), for any parameters: the bits come back with their padding,
the queue is empty again, and the first `|s|` bits are the bits. The block count is given as the operand `A0` REASSEMBLE
takes. `exec` is the case `P = params`. -/
def Obligations.SegmentReassembleLaw : Prop :=
  ∀ (P : Params) (s : State) (bits : Bits) (bs k : Word), s.bq = [] → bits.length ≤ 8 * P.maxBurstBytes →
    1 ≤ bs.toNat → bs.toNat ≤ P.maxBlockBits → k.toNat = ⌈(bits.length : Rat) / bs.toNat⌉₊ → k.toNat ≤ P.qdepth →
    ∃ t u : State, segmentCmd P { s with din := .bits bits, a0 := bs } = .next t ∧
      reassembleCmd P { t with a0 := k, a1 := bs } = .next u ∧
      u.dout = .bits (bits ++ zeros (k.toNat * bs.toNat - bits.length)) ∧ u.bq = [] ∧
      (bits ++ zeros (k.toNat * bs.toNat - bits.length)).take bits.length = bits

/-- BLOCK_PLAN, SEGMENT and REASSEMBLE agree (41_mcs_table.md R92), for any legal parameters: on an empty queue with room
for the plan, SEGMENT pushes exactly the planned blocks and reports the planned padding, and REASSEMBLE returns the bits
and that padding. `exec` is the case `P = params`. -/
def Obligations.PlanSegmentReassembleAgree : Prop :=
  ∀ (P : Params) (s : State) (m : McsCode) (row : McsRow) (bits : Bits) (bytes : Word),
    P.Legal → mcsRow P m = some row → bits.length = 8 * bytes.toNat → bytes.toNat ≤ P.maxBurstBytes → s.bq = [] →
    ⌈(bits.length : Rat) / (8 * row.payloadBytes : Rat)⌉₊ ≤ P.qdepth →
    ∃ p t u : State, blockPlanCmd P m { s with a0 := bytes } = .next p ∧
      segmentCmd P { p with a0 := p.r.r0.setWidth 32, din := .bits bits } = .next t ∧
      t.bq.length = p.r.r1.toNat ∧ t.r.r1 = p.r.r2 ∧
      reassembleCmd P { t with a0 := p.r.r1.setWidth 32, a1 := p.r.r0.setWidth 32 } = .next u ∧
      u.dout = .bits (bits ++ zeros p.r.r2.toNat)

/-! ### Timing family -/

/-- TIMING_INIT of a usable configuration latches it and reports Ts, symbols per frame, slots per symbol and Fs in the
closed forms of 44_timing.md R121, R122, with the default tables (R126; log entries 4 and 6). The width check of R126
never fires then. -/
def Obligations.TimingInitLatches : Prop :=
  ∀ s : State, UsableConfig s.cfg →
    CompletesWith (exec .timingInit s) { s with tcfg := s.cfg, tv := true } .none
      (nanos (symbolSeconds s.cfg)) ⌊frameSeconds s.cfg.frameCode.toNat / symbolSeconds s.cfg⌋₊
      ⌊onePlusG s.cfg * s.cfg.fft.toNat / 4⌋₊ ⌊samplingHz s.cfg⌋₊

/-- TIMING_INIT's fatals in their order: ILLEGAL_CONFIG, BAD_BANDWIDTH, BAD_FRAME_CODE (44_timing.md R126).
With the default parameters (log entries 4 and 6). -/
def Obligations.TimingInitHalts : Prop :=
  ∀ s : State,
    (¬(1 ≤ s.cfg.bw.toNat ∧ 256 ≤ s.cfg.fft.toNat ∧ s.cfg.fft.toNat ≤ 1024 ∧ 1 ≤ s.cfg.gden.toNat ∧
        s.cfg.gnum.toNat ≤ s.cfg.gden.toNat) → HaltsWith (exec .timingInit s) s 0x07) ∧
    ((1 ≤ s.cfg.bw.toNat ∧ 256 ≤ s.cfg.fft.toNat ∧ s.cfg.fft.toNat ≤ 1024 ∧ 1 ≤ s.cfg.gden.toNat ∧
        s.cfg.gnum.toNat ≤ s.cfg.gden.toNat) →
      ((∀ k ∈ [1750000, 1500000, 1250000, 2750000, 2000000], s.cfg.bw.toNat % k ≠ 0) →
        HaltsWith (exec .timingInit s) s 0x03) ∧
      ((∃ k ∈ [1750000, 1500000, 1250000, 2750000, 2000000], s.cfg.bw.toNat % k = 0) → 6 < s.cfg.frameCode.toNat →
        HaltsWith (exec .timingInit s) s 0x04))

/-- DATA_RATE: `⌊BPS / Ts⌋` bits per second and BPS (44_timing.md R129, R130).
With the default parameters (log entries 4 and 6). -/
def Obligations.DataRateIsExact : Prop :=
  ∀ (s : State) (m : McsCode) (row : McsRow), mcsRow params m = some row → s.tv = true → UsableConfig s.tcfg →
    CompletesWith (exec (.dataRate m) s) s .none ⌊(bitsPerSymbol row : Rat) / symbolSeconds s.tcfg⌋₊
      (bitsPerSymbol row) 0 0

/-- BLOCK_TIME: `codedBits × Ts / BPS` in ticks, with no compensation (44_timing.md R131, R132).
With the default parameters (log entries 4 and 6). -/
def Obligations.BlockTimeIsExact : Prop :=
  ∀ (s : State) (m : McsCode) (row : McsRow), mcsRow params m = some row → s.tv = true → UsableConfig s.tcfg →
    CompletesWith (exec (.blockTime m) s) s .none
      (nanos ((8 * row.codedBytes : Rat) * symbolSeconds s.tcfg / bitsPerSymbol row)) 0 0 0

/-- BURST_TIME: whole symbols, floored to ticks, plus 3 ns once (44_timing.md R133, R134).
With the default parameters (log entries 4 and 6). -/
def Obligations.BurstTimeIsExact : Prop :=
  ∀ (s : State) (m : McsCode) (row : McsRow), mcsRow params m = some row → s.tv = true → UsableConfig s.tcfg →
    ∃ nb ns : Nat,
      nb = ⌈(8 * s.a0.toNat : Rat) / (8 * row.payloadBytes : Rat)⌉₊ ∧
      ns = ⌈(nb : Rat) * (8 * row.codedBytes : Rat) / bitsPerSymbol row⌉₊ ∧
      CompletesWith (exec (.burstTime m) s) s .none (nanos (ns * symbolSeconds s.tcfg) + 3) ns nb 0

/-- NR_SYMBOLS with `TV = 1` returns the two counts for any configuration (44_timing.md R136).
With the default parameters (log entries 4 and 6). -/
def Obligations.NrSymbolsIsExact : Prop :=
  ∀ (s : State) (m : McsCode) (row : McsRow), mcsRow params m = some row → s.tv = true →
    ∃ nb ns : Nat,
      nb = ⌈(8 * s.a0.toNat : Rat) / (8 * row.payloadBytes : Rat)⌉₊ ∧
      ns = ⌈(nb : Rat) * (8 * row.codedBytes : Rat) / bitsPerSymbol row⌉₊ ∧
      CompletesWith (exec (.nrSymbols m) s) s .none ns nb 0 0

/-- NR_SYMBOLS gives R1 of BURST_TIME for the same operands, and depends only on the MCS and the byte count (44_timing.md
R137). With the default parameters (log entries 4 and 6). -/
def Obligations.NrSymbolsIsBurstTimeR1 : Prop :=
  (∀ (s : State) (m : McsCode), m ≠ .code7 → s.tv = true → UsableConfig s.tcfg →
    ∃ t u : State, exec (.nrSymbols m) s = .next t ∧ exec (.burstTime m) s = .next u ∧ t.cerr = 0 ∧ u.cerr = 0 ∧
      t.r.r0 = u.r.r1) ∧
  ∀ (s s' t t' : State) (m : McsCode), m ≠ .code7 → s.tv = true → s'.tv = true → s.a0 = s'.a0 →
    exec (.nrSymbols m) s = .next t → exec (.nrSymbols m) s' = .next t' → t.r = t'.r

/-- NR_BYTES: `⌊N × BPS / 8⌋`, for every `N` (44_timing.md R138, R139).
With the default parameters (log entries 4 and 6). -/
def Obligations.NrBytesIsExact : Prop :=
  ∀ (s : State) (m : McsCode) (row : McsRow), mcsRow params m = some row → s.tv = true →
    CompletesWith (exec (.nrBytes m) s) s .none ⌊(s.a0.toNat : Rat) * bitsPerSymbol row / 8⌋₊ 0 0 0

/-- `DataRate × Ts = BPS`, so the symbol and byte counts are the integer functions the model computes, and BLOCK_TIME is
`codedBits / BPS` symbols; for any legal parameters and any configuration with a symbol duration (44_timing.md R124,
R140). -/
def Obligations.RatesAreExact : Prop :=
  ∀ (P : Params) (m : McsCode) (row : McsRow) (c : Cfg), P.Legal → mcsRow P m = some row → 0 < ts P c →
    dataRate P c row * ts P c = bitsPerSymbol row ∧
    (∀ bytes, nrSymbols row bytes =
      ⌈(nrBlocks row bytes : Rat) * codedBits row / dataRate P c row / ts P c⌉₊) ∧
    (∀ n : Nat, nrBytes row n = ⌊(n : Rat) * ts P c * dataRate P c row / 8⌋₊) ∧
    blockTime P c row = (codedBits row : Rat) / bitsPerSymbol row * ts P c

/-- The inverse law (44_timing.md R141), for any legal table. -/
def Obligations.SymbolsCarryTheBytes : Prop :=
  ∀ (P : Params) (m : McsCode) (row : McsRow), P.Legal → mcsRow P m = some row →
    ∀ bytes : Nat, nrBytes row (nrSymbols row bytes) ≥ bytes

/-- Burst against blocks (44_timing.md R142), in exact seconds, for any legal parameters. -/
def Obligations.BurstCoversItsBlocks : Prop :=
  ∀ (P : Params) (m : McsCode) (row : McsRow) (c : Cfg), P.Legal → mcsRow P m = some row → 0 < ts P c →
    ∀ bytes : Nat, (nrSymbols row bytes : Rat) * ts P c ≥ (nrBlocks row bytes : Rat) * blockTime P c row

/-- Transmitter and receiver agree: two machines with the same parameters, the same TCFG and TV, given the same operand,
get the same results from BLOCK_PLAN, BLOCK_TIME and BURST_TIME, whatever else differs between them
(70_reset_and_hazards.md R175). -/
def Obligations.TransmitterReceiverAgree : Prop :=
  ∀ (s s' : State) (m : McsCode), m ≠ .code7 → s.tv = true → s'.tv = true → s.tcfg = s'.tcfg → s.a0 = s'.a0 →
    ∀ i ∈ [Instr.blockPlan m, .blockTime m, .burstTime m],
      ∃ t t' : State, exec i s = .next t ∧ exec i s' = .next t' ∧ t.r = t'.r ∧ t.cerr = t'.cerr ∧ t.dout = t'.dout

/-! ### Any parameters -/

/-- The machine with any parameters steps as this one does: a step runs the decoded command with those parameters, and
`exec` and `step` are the case of the default parameters (00_scope.md section 4; 60_exceptions.md section 1). The default
parameters are log entry 4; the port and the count are the model's (log entries 1 and 3). -/
def Obligations.AnyParametersStep : Prop :=
  (∀ (P : Params) (s u : State) (x : Transaction) (rest : List HostEvent) (i : Instr),
    s.halted = false → s.inbox = .present x :: rest → decode x.cmd = .ok i →
    execWith P i { s with inbox := rest, a0 := x.a0, a1 := x.a1, din := x.din } = .next u →
    stepWith P s = .next { u with a0 := 0, a1 := 0, din := .none, completed := u.completed + 1 }) ∧
  (∀ (i : Instr) (s : State), execWith params i s = exec i s) ∧ ∀ s : State, stepWith params s = step s

/-- With any parameters the invariant holds at reset and every step keeps it: the queue within its depth, its blocks
within `MAX_BLOCK_BITS`, the codes assigned, the snapshot one that TIMING_INIT accepts with those parameters (10_state.md,
60_exceptions.md, 44_timing.md). The port's clause is the model's (log entry 1). -/
def Obligations.AnyParametersKeepInvariant : Prop :=
  ∀ P : Params, InvWith P State.reset ∧ ∀ s t : State, InvWith P s → stepWith P s = .next t → InvWith P t
end

