-- ==== Sys2Proof/Laws/State.lean ====
section
/-! SUPPORT. The small lemmas of the state's named updates: one per field, true by rfl. Updates written in place
(`{ s with … }`) reduce by projection and need none. -/

namespace Sys2Proof.Machine

variable (s : State) (t : Transaction) (blocks : List Block) (c : Nat)

@[simp] theorem accept_cfg : (accept t s).cfg = s.cfg := rfl
@[simp] theorem accept_tv : (accept t s).tv = s.tv := rfl
@[simp] theorem accept_tcfg : (accept t s).tcfg = s.tcfg := rfl
@[simp] theorem accept_r : (accept t s).r = s.r := rfl
@[simp] theorem accept_halted : (accept t s).halted = s.halted := rfl
@[simp] theorem accept_cerr : (accept t s).cerr = s.cerr := rfl
@[simp] theorem accept_fcause : (accept t s).fcause = s.fcause := rfl
@[simp] theorem accept_bq : (accept t s).bq = s.bq := rfl
@[simp] theorem accept_a0 : (accept t s).a0 = t.a0 := rfl
@[simp] theorem accept_a1 : (accept t s).a1 = t.a1 := rfl
@[simp] theorem accept_din : (accept t s).din = t.din := rfl
@[simp] theorem accept_dout : (accept t s).dout = s.dout := rfl
@[simp] theorem accept_inbox : (accept t s).inbox = s.inbox := rfl
@[simp] theorem accept_completed : (accept t s).completed = s.completed := rfl

@[simp] theorem retire_cfg : (retire s).cfg = s.cfg := rfl
@[simp] theorem retire_tv : (retire s).tv = s.tv := rfl
@[simp] theorem retire_tcfg : (retire s).tcfg = s.tcfg := rfl
@[simp] theorem retire_r : (retire s).r = s.r := rfl
@[simp] theorem retire_halted : (retire s).halted = s.halted := rfl
@[simp] theorem retire_cerr : (retire s).cerr = s.cerr := rfl
@[simp] theorem retire_fcause : (retire s).fcause = s.fcause := rfl
@[simp] theorem retire_bq : (retire s).bq = s.bq := rfl
@[simp] theorem retire_a0 : (retire s).a0 = 0 := rfl
@[simp] theorem retire_a1 : (retire s).a1 = 0 := rfl
@[simp] theorem retire_din : (retire s).din = .none := rfl
@[simp] theorem retire_dout : (retire s).dout = s.dout := rfl
@[simp] theorem retire_inbox : (retire s).inbox = s.inbox := rfl
@[simp] theorem retire_completed : (retire s).completed = s.completed + 1 := rfl

@[simp] theorem bqPushAll_cfg : (bqPushAll blocks s).cfg = s.cfg := rfl
@[simp] theorem bqPushAll_tv : (bqPushAll blocks s).tv = s.tv := rfl
@[simp] theorem bqPushAll_tcfg : (bqPushAll blocks s).tcfg = s.tcfg := rfl
@[simp] theorem bqPushAll_r : (bqPushAll blocks s).r = s.r := rfl
@[simp] theorem bqPushAll_halted : (bqPushAll blocks s).halted = s.halted := rfl
@[simp] theorem bqPushAll_cerr : (bqPushAll blocks s).cerr = s.cerr := rfl
@[simp] theorem bqPushAll_fcause : (bqPushAll blocks s).fcause = s.fcause := rfl
@[simp] theorem bqPushAll_bq : (bqPushAll blocks s).bq = s.bq ++ blocks := rfl
@[simp] theorem bqPushAll_a0 : (bqPushAll blocks s).a0 = s.a0 := rfl
@[simp] theorem bqPushAll_a1 : (bqPushAll blocks s).a1 = s.a1 := rfl
@[simp] theorem bqPushAll_din : (bqPushAll blocks s).din = s.din := rfl
@[simp] theorem bqPushAll_dout : (bqPushAll blocks s).dout = s.dout := rfl
@[simp] theorem bqPushAll_inbox : (bqPushAll blocks s).inbox = s.inbox := rfl
@[simp] theorem bqPushAll_completed : (bqPushAll blocks s).completed = s.completed := rfl

@[simp] theorem bqDrop_cfg : (bqDrop c s).cfg = s.cfg := rfl
@[simp] theorem bqDrop_tv : (bqDrop c s).tv = s.tv := rfl
@[simp] theorem bqDrop_tcfg : (bqDrop c s).tcfg = s.tcfg := rfl
@[simp] theorem bqDrop_r : (bqDrop c s).r = s.r := rfl
@[simp] theorem bqDrop_halted : (bqDrop c s).halted = s.halted := rfl
@[simp] theorem bqDrop_cerr : (bqDrop c s).cerr = s.cerr := rfl
@[simp] theorem bqDrop_fcause : (bqDrop c s).fcause = s.fcause := rfl
@[simp] theorem bqDrop_bq : (bqDrop c s).bq = s.bq.drop c := rfl
@[simp] theorem bqDrop_a0 : (bqDrop c s).a0 = s.a0 := rfl
@[simp] theorem bqDrop_a1 : (bqDrop c s).a1 = s.a1 := rfl
@[simp] theorem bqDrop_din : (bqDrop c s).din = s.din := rfl
@[simp] theorem bqDrop_dout : (bqDrop c s).dout = s.dout := rfl
@[simp] theorem bqDrop_inbox : (bqDrop c s).inbox = s.inbox := rfl
@[simp] theorem bqDrop_completed : (bqDrop c s).completed = s.completed := rfl

end Sys2Proof.Machine
end

