-- ==== Sys2Proof/Laws/Ops.lean ====
section
/-! SUPPORT. Once for each shared operation: everything it can do. -/

namespace Sys2Proof.Machine

variable {s t : State}

/-! ### How a command ends -/

theorem toReg_of_lt {v : Nat} (h : v < 2 ^ 64) : toReg v = BitVec.ofNat 64 v := if_pos h

theorem toReg_toNat {v : Nat} (h : v < 2 ^ 64) : (toReg v).toNat = v := by
  rw [toReg_of_lt h, BitVec.toNat_ofNat, Nat.mod_eq_of_lt h]

@[simp] theorem toReg_zero : toReg 0 = 0 := toReg_of_lt (by decide)

@[simp] theorem results_r0 (a b c d : Nat) : (results a b c d).r0 = toReg a := rfl
@[simp] theorem results_r1 (a b c d : Nat) : (results a b c d).r1 = toReg b := rfl
@[simp] theorem results_r2 (a b c d : Nat) : (results a b c d).r2 = toReg c := rfl
@[simp] theorem results_r3 (a b c d : Nat) : (results a b c d).r3 = toReg d := rfl

@[simp] theorem results_zero : results 0 0 0 0 = Results.zero := by
  simp [results, Results.zero]

theorem complete_eq_next_iff {r : Results} {d : Payload} :
    complete r d s = .next t ↔ t = { s with r := r, dout := d, cerr := 0 } := by
  simp [complete, eq_comm]

theorem raiseFatal_eq_next_iff {c : FatalCause} :
    raiseFatal c s = .next t ↔
      t = { s with halted := true, fcause := fatalCode c, cerr := 0, dout := .none } := by
  simp [raiseFatal, eq_comm]

theorem raiseCErr_eq_next_iff {e : CmdError} :
    raiseCErr e s = .next t ↔ t = { s with cerr := cerrCode e, r := Results.zero, dout := .none } := by
  simp [raiseCErr, eq_comm]

theorem fatalCode_range (c : FatalCause) : 1 ≤ (fatalCode c).toNat ∧ (fatalCode c).toNat ≤ 7 := by
  cases c <;> decide

theorem cerrCode_range (e : CmdError) : 1 ≤ (cerrCode e).toNat ∧ (cerrCode e).toNat ≤ 11 := by
  cases e <;> decide

/-- The three ways a command can end from `s`, where `did` says what a completion leaves (10_state.md R17). -/
inductive Ends (did : State → Prop) (s t : State) : Prop where
  | fatal (c : FatalCause) (h : t = { s with halted := true, fcause := fatalCode c, cerr := 0, dout := .none })
  | cerr (e : CmdError) (h : t = { s with cerr := cerrCode e, r := Results.zero, dout := .none })
  | done (s' : State) (hs : did s') (r : Results) (d : Payload) (h : t = { s' with r := r, dout := d, cerr := 0 })

theorem ends_complete {did : State → Prop} {s' : State} {r : Results} {d : Payload} (hs : did s')
    (h : complete r d s' = .next t) : Ends did s t :=
  .done s' hs r d (complete_eq_next_iff.mp h)

theorem ends_fatal {did : State → Prop} {c : FatalCause} (h : raiseFatal c s = .next t) : Ends did s t :=
  .fatal c (raiseFatal_eq_next_iff.mp h)

theorem ends_cerr {did : State → Prop} {e : CmdError} (h : raiseCErr e s = .next t) : Ends did s t :=
  .cerr e (raiseCErr_eq_next_iff.mp h)

/-! ### The shared checks -/

theorem withMcs_cases {P : Params} {m : McsCode} {k : McsRow → Answer} {a : Answer} (h : withMcs P m s k = a) :
    (mcsRow P m = none ∧ raiseFatal .unknownMcs s = a) ∨ ∃ row, mcsRow P m = some row ∧ k row = a := by
  unfold withMcs at h
  split at h
  · exact .inl ⟨‹_›, h⟩
  · exact .inr ⟨_, ‹_›, h⟩

theorem withTiming_cases {P : Params} {m : McsCode} {k : McsRow → Answer} {a : Answer}
    (h : withTiming P m s k = a) :
    (mcsRow P m = none ∧ raiseFatal .unknownMcs s = a) ∨
      ∃ row, mcsRow P m = some row ∧
        ((s.tv = false ∧ raiseFatal .notConfigured s = a) ∨ (s.tv = true ∧ k row = a)) := by
  rcases withMcs_cases h with h | ⟨row, hr, h⟩
  · exact .inl h
  · refine .inr ⟨row, hr, ?_⟩
    cases hv : s.tv <;> simp_all

theorem mcsRow_eq_none_iff {P : Params} {m : McsCode} : mcsRow P m = none ↔ m = .code7 := by
  cases m <;> simp [mcsRow]

/-! ### The port -/

theorem retireAnswer_eq_next_iff {a : Answer} :
    retireAnswer a = .next t ↔ ∃ u, a = .next u ∧ t = retire u := by
  cases a <;> simp [retireAnswer, eq_comm]

theorem answerHalted_eq_next_iff : answerHalted s = .next t ↔ t = { s with dout := .none } := by
  simp [answerHalted, eq_comm]

theorem resetEvent_eq_next_iff {rest : List HostEvent} :
    resetEvent rest = .next t ↔ t = { State.reset with inbox := rest } := by
  simp [resetEvent, eq_comm]

/-- Everything one host event can do, whatever runs the commands. -/
theorem takeEvent_cases {run : Instr → State → Answer} {a : Answer} (h : takeEvent run s = a) :
    (s.inbox = [] ∧ a = .next s) ∨
    (∃ rest, s.inbox = .reset :: rest ∧ a = resetEvent rest) ∨
    (∃ x rest, s.inbox = .present x :: rest ∧ s.halted = true ∧ a = answerHalted { s with inbox := rest }) ∨
    (∃ x rest e, s.inbox = .present x :: rest ∧ s.halted = false ∧ decode x.cmd = .error e ∧
      a = retireAnswer (raiseFatal .illegalCommand { s with inbox := rest })) ∨
    (∃ x rest i, s.inbox = .present x :: rest ∧ s.halted = false ∧ decode x.cmd = .ok i ∧
      a = retireAnswer (run i (accept x { s with inbox := rest }))) := by
  unfold takeEvent at h
  split at h
  · exact .inl ⟨‹_›, h.symm⟩
  · exact .inr (.inl ⟨_, ‹_›, h.symm⟩)
  · rename_i x rest hx
    unfold transact executeTransaction at h
    cases hh : s.halted
    · cases hd : decode x.cmd
      · exact .inr (.inr (.inr (.inl ⟨x, rest, _, hx, rfl, hd, by simpa [hh, hd] using h.symm⟩)))
      · exact .inr (.inr (.inr (.inr ⟨x, rest, _, hx, rfl, hd, by simpa [hh, hd] using h.symm⟩)))
    · exact .inr (.inr (.inl ⟨x, rest, hx, rfl, by simpa [hh] using h.symm⟩))

/-! ### Bits, bytes and the queue -/

@[simp] theorem bitsOf_nil : bitsOf [] = [] := rfl

@[simp] theorem bitsOf_cons (b : Byte) (bs : List Byte) : bitsOf (b :: bs) = bitsOfByte b ++ bitsOf bs := rfl

@[simp] theorem bitsOfByte_length (b : Byte) : (bitsOfByte b).length = 8 := rfl

theorem bitsOf_length (bs : List Byte) : (bitsOf bs).length = 8 * bs.length := by
  induction bs with
  | nil => rfl
  | cons b bs ih => simp [ih]; omega

theorem bitsOf_append (xs ys : List Byte) : bitsOf (xs ++ ys) = bitsOf xs ++ bitsOf ys := by
  simp [bitsOf]

@[simp] theorem zeros_length (k : Nat) : (zeros k).length = k := List.length_replicate

theorem splitBlocks_length (bs k : Nat) (t : Bits) : (splitBlocks bs k t).length = k := by
  induction k generalizing t with
  | zero => rfl
  | succ k ih => simp [splitBlocks, ih]

end Sys2Proof.Machine
end

