-- ==== Sys2Proof/Laws/Exec.lean ====
section
/-! SUPPORT. Once for each command: how it can end and what a completion changes before the results are written. The
state in which results are written differs from `s` only as its lemma says. -/

namespace Sys2Proof.Machine

variable {s t : State} {P : Params}

theorem execCfgWr_ends {reg : Reg} (h : execCfgWr reg s = .next t) :
    Ends (fun s' => s' = { s with cfg := writeCfg reg (opA0 s) s.cfg, tv := false }) s t := by
  unfold execCfgWr at h
  split at h
  · exact ends_fatal h
  · split at h
    · exact ends_cerr h
    · exact ends_complete rfl h

theorem cfgRdCmd_ends {reg : Reg} (h : cfgRdCmd P reg s = .next t) : Ends (· = s) s t := by
  unfold cfgRdCmd at h
  split at h
  · exact ends_cerr h
  · exact ends_complete rfl h

theorem mcsInfoCmd_ends {m : McsCode} (h : mcsInfoCmd P m s = .next t) : Ends (· = s) s t := by
  rcases withMcs_cases h with ⟨-, h⟩ | ⟨row, -, h⟩
  · exact ends_fatal h
  · exact ends_complete rfl h

theorem blockPlanCmd_ends {m : McsCode} (h : blockPlanCmd P m s = .next t) : Ends (· = s) s t := by
  rcases withMcs_cases h with ⟨-, h⟩ | ⟨row, -, h⟩
  · exact ends_fatal h
  · simp only at h
    split at h
    · exact ends_cerr h
    · split at h
      · exact ends_fatal h
      · exact ends_complete rfl h

theorem serializeCmd_ends (h : serializeCmd P s = .next t) : Ends (· = s) s t := by
  unfold serializeCmd at h
  split at h
  · exact ends_cerr h
  · split at h
    · exact ends_cerr h
    · exact ends_complete rfl h

theorem deserializeCmd_ends (h : deserializeCmd P s = .next t) : Ends (· = s) s t := by
  unfold deserializeCmd at h
  split at h
  · exact ends_cerr h
  · split at h
    · exact ends_cerr h
    · split at h
      · exact ends_cerr h
      · split at h
        · exact ends_cerr h
        · exact ends_complete rfl h

theorem segmentCmd_ends (h : segmentCmd P s = .next t) :
    Ends (fun s' => ∃ bits, dinBits s = some bits ∧ badBlockSize P (opA0 s) = false ∧
      bqLevel s + ceilDiv bits.length (opA0 s) ≤ P.qdepth ∧
      s' = bqPushAll (splitBlocks (opA0 s) (ceilDiv bits.length (opA0 s))
        (bits ++ zeros (ceilDiv bits.length (opA0 s) * opA0 s - bits.length))) s) s t := by
  unfold segmentCmd at h
  split at h
  · exact ends_cerr h
  · rename_i bits hb
    simp only at h
    split at h
    · exact ends_cerr h
    · split at h
      · exact ends_cerr h
      · split at h
        · exact ends_cerr h
        · exact ends_complete ⟨bits, hb, by simp_all, by omega, rfl⟩ h

theorem reassembleCmd_ends (h : reassembleCmd P s = .next t) :
    Ends (fun s' => opA0 s ≤ bqLevel s ∧ s' = bqDrop (opA0 s) s) s t := by
  unfold reassembleCmd at h
  simp only at h
  split at h
  · exact ends_cerr h
  · split at h
    · exact ends_cerr h
    · split at h
      · exact ends_cerr h
      · exact ends_complete ⟨by omega, rfl⟩ h

theorem bqPushCmd_ends (h : bqPushCmd P s = .next t) :
    Ends (fun s' => ∃ blk, dinBits s = some blk ∧ badBlockSize P blk.length = false ∧ bqLevel s ≠ P.qdepth ∧
      s' = bqPushAll [blk] s) s t := by
  unfold bqPushCmd at h
  split at h
  · exact ends_cerr h
  · rename_i blk hb
    split at h
    · exact ends_cerr h
    · split at h
      · exact ends_cerr h
      · exact ends_complete ⟨blk, hb, by simp_all, ‹_›, rfl⟩ h

theorem execBqClear_ends (h : execBqClear s = .next t) : Ends (fun s' => s' = { s with bq := [] }) s t :=
  ends_complete rfl h

theorem timingInitCmd_ends (h : timingInitCmd P s = .next t) :
    Ends (fun s' => configInRange s.cfg = true ∧ samplingFactor P s.cfg ≠ none ∧ P.frameDur s.cfg.frameCode ≠ none ∧
      s' = { s with tcfg := s.cfg, tv := true }) s t := by
  unfold timingInitCmd at h
  simp only at h
  split at h
  · exact ends_fatal h
  · split at h
    · exact ends_fatal h
    · split at h
      · exact ends_fatal h
      · split at h
        · exact ends_fatal h
        · exact ends_complete ⟨by simp_all, ‹_›, ‹_›, rfl⟩ h

theorem dataRateCmd_ends {m : McsCode} (h : dataRateCmd P m s = .next t) : Ends (· = s) s t := by
  rcases withTiming_cases h with ⟨-, h⟩ | ⟨row, -, ⟨-, h⟩ | ⟨-, h⟩⟩
  · exact ends_fatal h
  · exact ends_fatal h
  · exact ends_complete rfl h

theorem blockTimeCmd_ends {m : McsCode} (h : blockTimeCmd P m s = .next t) : Ends (· = s) s t := by
  rcases withTiming_cases h with ⟨-, h⟩ | ⟨row, -, ⟨-, h⟩ | ⟨-, h⟩⟩
  · exact ends_fatal h
  · exact ends_fatal h
  · simp only at h
    split at h
    · exact ends_cerr h
    · exact ends_complete rfl h

theorem burstTimeCmd_ends {m : McsCode} (h : burstTimeCmd P m s = .next t) : Ends (· = s) s t := by
  rcases withTiming_cases h with ⟨-, h⟩ | ⟨row, -, ⟨-, h⟩ | ⟨-, h⟩⟩
  · exact ends_fatal h
  · exact ends_fatal h
  · simp only at h
    split at h
    · exact ends_cerr h
    · split at h
      · exact ends_cerr h
      · exact ends_complete rfl h

theorem nrSymbolsCmd_ends {m : McsCode} (h : nrSymbolsCmd P m s = .next t) : Ends (· = s) s t := by
  rcases withTiming_cases h with ⟨-, h⟩ | ⟨row, -, ⟨-, h⟩ | ⟨-, h⟩⟩
  · exact ends_fatal h
  · exact ends_fatal h
  · simp only at h
    split at h
    · exact ends_cerr h
    · exact ends_complete rfl h

theorem nrBytesCmd_ends {m : McsCode} (h : nrBytesCmd P m s = .next t) : Ends (· = s) s t := by
  rcases withTiming_cases h with ⟨-, h⟩ | ⟨row, -, ⟨-, h⟩ | ⟨-, h⟩⟩
  · exact ends_fatal h
  · exact ends_fatal h
  · exact ends_complete rfl h

/-! ### Any parameters, and this machine's -/

/-- `exec` runs the commands with this machine's parameters. -/
theorem execWith_params : execWith params = exec := by
  funext i s
  cases i <;> rfl

/-- `step` is the step with this machine's parameters. -/
theorem stepWith_params : stepWith params = step := by
  funext s
  rw [stepWith, execWith_params, step]

end Sys2Proof.Machine
end

