-- ==== Sys2Proof/Laws/Params.lean ====
section
/-! SUPPORT. The parameters this machine runs with satisfy every constraint the spec puts on them (00_scope.md R8;
41_mcs_table.md R83; 44_timing.md R120). -/

namespace Sys2Proof.Machine

/-- Each row of the default table is legal (41_mcs_table.md R83). -/
theorem defaultMcsTable_rows_legal (i : Fin 7) : (defaultMcsTable[i]).Legal 864 := by
  have h : ∀ i : Fin 7,
      (1 ≤ (defaultMcsTable[i]).bps ∧ (defaultMcsTable[i]).bps ≤ 6) ∧ 1 ≤ (defaultMcsTable[i]).rateDen ∧
      (defaultMcsTable[i]).rateDen ≤ 2 * (defaultMcsTable[i]).rateNum ∧
      4 * (defaultMcsTable[i]).rateNum ≤ 3 * (defaultMcsTable[i]).rateDen ∧
      ((defaultMcsTable[i]).rateNum < 256 ∧ (defaultMcsTable[i]).rateDen < 256) ∧
      (12 ≤ (defaultMcsTable[i]).payloadBytes ∧ (defaultMcsTable[i]).payloadBytes ≤ 108) ∧
      (24 ≤ (defaultMcsTable[i]).codedBytes ∧ (defaultMcsTable[i]).codedBytes ≤ 144) ∧
      (defaultMcsTable[i]).payloadBytes ≤ (defaultMcsTable[i]).codedBytes ∧
      8 * (defaultMcsTable[i]).payloadBytes ≤ 864 := by decide
  obtain ⟨a, b, c, d, e, f, g, j, k⟩ := h i
  exact ⟨a, b, c, d, e, f, g, j, k⟩

/-- The default sampling factors are positive and fit 16 bits (44_timing.md R120). -/
theorem defaultSfTable_legal : ∀ i : Fin 5,
    0 < defaultSfTable[i] ∧ (defaultSfTable[i]).num.toNat < 2 ^ 16 ∧ (defaultSfTable[i]).den < 2 ^ 16 := by
  decide +kernel

/-- A defined frame duration is positive (44_timing.md R122). -/
theorem defaultFrameDur_pos {code : Byte} {t : Rat} (h : defaultFrameDur code = some t) : 0 < t := by
  unfold defaultFrameDur at h
  split at h <;> simp only [Option.some.injEq, reduceCtorEq] at h <;> subst h <;> norm_num

/-- The spec's defaults are legal with any depth of at least 1 (00_scope.md R8). -/
theorem defaultParams_legal (n : Nat) : (defaultParams (n + 1)).Legal where
  rows := defaultMcsTable_rows_legal
  row1 := ⟨rfl, rfl, rfl⟩
  row0 := ⟨rfl, rfl⟩
  row6 := ⟨rfl, rfl⟩
  lenHiBits := .inl rfl
  factors := defaultSfTable_legal
  durations := fun _ _ h => defaultFrameDur_pos h
  ticks := .inl rfl
  maxBurstBytes := (by decide : 1 ≤ 2 ^ 32 - 1)
  qdepth := Nat.succ_le_succ (Nat.zero_le n)

/-- The parameters of this machine are legal. -/
theorem params_legal : params.Legal := defaultParams_legal _

end Sys2Proof.Machine
end

