-- ==== Sys2Proof/Laws/PerInstr.lean ====
section
/-! SUPPORT. Families of lemmas with one lemma per constructor of `Instr`. -/

namespace Sys2Proof.Laws

/-- The encoding of every command matches its own row of the opcode map by mask and match (30_encoding.md R55). -/
def EncodedMatch.Statement (i : Instr) : Prop := matchesOpcode (mnemonicOf i) (encode i) = true

theorem EncodedMatch.cfgWr (reg : Reg) : EncodedMatch.Statement (.cfgWr reg) := by cases reg <;> rfl
theorem EncodedMatch.cfgRd (reg : Reg) : EncodedMatch.Statement (.cfgRd reg) := by cases reg <;> rfl
theorem EncodedMatch.mcsInfo (mcs : McsCode) : EncodedMatch.Statement (.mcsInfo mcs) := by cases mcs <;> rfl
theorem EncodedMatch.blockPlan (mcs : McsCode) : EncodedMatch.Statement (.blockPlan mcs) := by cases mcs <;> rfl
theorem EncodedMatch.serialize : EncodedMatch.Statement .serialize := rfl
theorem EncodedMatch.deserialize : EncodedMatch.Statement .deserialize := rfl
theorem EncodedMatch.segment : EncodedMatch.Statement .segment := rfl
theorem EncodedMatch.reassemble : EncodedMatch.Statement .reassemble := rfl
theorem EncodedMatch.bqPush : EncodedMatch.Statement .bqPush := rfl
theorem EncodedMatch.bqClear : EncodedMatch.Statement .bqClear := rfl
theorem EncodedMatch.timingInit : EncodedMatch.Statement .timingInit := rfl
theorem EncodedMatch.dataRate (mcs : McsCode) : EncodedMatch.Statement (.dataRate mcs) := by cases mcs <;> rfl
theorem EncodedMatch.blockTime (mcs : McsCode) : EncodedMatch.Statement (.blockTime mcs) := by cases mcs <;> rfl
theorem EncodedMatch.burstTime (mcs : McsCode) : EncodedMatch.Statement (.burstTime mcs) := by cases mcs <;> rfl
theorem EncodedMatch.nrSymbols (mcs : McsCode) : EncodedMatch.Statement (.nrSymbols mcs) := by cases mcs <;> rfl
theorem EncodedMatch.nrBytes (mcs : McsCode) : EncodedMatch.Statement (.nrBytes mcs) := by cases mcs <;> rfl

end Sys2Proof.Laws
end

