-- ==== Sys2Proof/Tests/Slice0.lean ====
section
/-! SUPPORT. Tests of one decode or one step each, with the expected values of spec/95_test_vectors.md (the vector is
named at each test), and for each statement with hypotheses a witness that meets them. -/

namespace Sys2Proof.Tests

open Sys2Proof Sys2Proof.Machine

/-! ### Helpers -/

/-- The reset state with a transaction's operands latched. -/
def start (a0 a1 : Word) (din : Payload) : State := { State.reset with a0 := a0, a1 := a1, din := din }

/-- Configuration 1 of the vectors: 10 MHz, FFT 256, G = 1/4, 10 ms. -/
def config1 : Cfg := { bw := 10000000, fft := 256, gnum := 1, gden := 4, frameCode := 4 }

/-- A state with a latched configuration and a first operand. -/
def timed (c : Cfg) (a0 : Word) : State := { State.reset with cfg := c, tcfg := c, tv := true, a0 := a0 }

/-- A state with a queue. -/
def queued (bq : List Block) (a0 a1 : Word) (din : Payload) : State :=
  { State.reset with bq := bq, a0 := a0, a1 := a1, din := din }

/-- What the response to an answer shows: `R0` to `R3`, STATUS and DOUT. -/
def seen : Answer → Option (List Nat × Nat × Payload)
  | .next s => some ([s.r.r0.toNat, s.r.r1.toNat, s.r.r2.toNat, s.r.r3.toNat], (statusWord s).toNat, s.dout)
  | .fault _ => none
  | .refused _ => none

/-- The state after an answer. -/
def nextOf : Answer → Option State
  | .next s => some s
  | .fault _ => none
  | .refused _ => none

/-- The queue after an answer. -/
def queueAfter (a : Answer) : Option (List Block) := (nextOf a).map State.bq

/-- The two packets of vector V-COD-1. -/
def twoPackets : Burst := [[0x40, 0x00, 0x05, 0xAA, 0xBB], [0x80, 0x11, 0x22, 0x33, 0x44, 0x55]]

/-- The three blocks of segmenter vector 3. -/
def threeBlocks : List Block :=
  [[true, false, true, true], [false, false, true, true], [false, true, false, false]]

/-! ### Well-formedness: the one check refuses an ill-formed term -/

theorem test_wellFormed_refuses_cfgWr_status : ¬ (Instr.cfgWr .status).WellFormed := by decide
theorem test_wellFormed_admits_cfgWr_frameCode : (Instr.cfgWr .frameCode).WellFormed := by decide

/-! ### Decoding: words written out field by field from 30_encoding.md R54 to R58, one per command -/

theorem test_decode_cfgWr : decode 0b00000001000000000000000000000100 = .ok (.cfgWr .frameCode) := by decide
theorem test_decode_cfgRd : decode 0b00000010000000000000000000100110 = .ok (.cfgRd .tsTicks) := by decide
theorem test_decode_mcsInfo : decode 0b00010000000000010000000000000000 = .ok (.mcsInfo .qpsk_1_2) := by decide
theorem test_decode_blockPlan : decode 0b00010001000001100000000000000000 = .ok (.blockPlan .qam64_3_4) := by decide
theorem test_decode_serialize : decode 0b00100000000000000000000000000000 = .ok .serialize := by decide
theorem test_decode_deserialize : decode 0b00100001000000000000000000000000 = .ok .deserialize := by decide
theorem test_decode_segment : decode 0b00110000000000000000000000000000 = .ok .segment := by decide
theorem test_decode_reassemble : decode 0b00110001000000000000000000000000 = .ok .reassemble := by decide
theorem test_decode_bqPush : decode 0b00110010000000000000000000000000 = .ok .bqPush := by decide
theorem test_decode_bqClear : decode 0b00110011000000000000000000000000 = .ok .bqClear := by decide
theorem test_decode_timingInit : decode 0b01000000000000000000000000000000 = .ok .timingInit := by decide
theorem test_decode_dataRate : decode 0b01000001000001110000000000000000 = .ok (.dataRate .code7) := by decide
theorem test_decode_blockTime : decode 0b01000010000000010000000000000000 = .ok (.blockTime .qpsk_1_2) := by decide
theorem test_decode_burstTime : decode 0b01000011000000110000000000000000 = .ok (.burstTime .qam16_1_2) := by decide
theorem test_decode_nrSymbols : decode 0b01000100000001000000000000000000 = .ok (.nrSymbols .qam16_3_4) := by decide
theorem test_decode_nrBytes : decode 0b01000101000001010000000000000000 = .ok (.nrBytes .qam64_2_3) := by decide

/-- Encoding vectors 1 to 12. -/
theorem test_decode_illegal :
    [0x00000000, 0xFFFFFFFF, 0x50000000, 0x34000000, 0x10810000, 0x10010100, 0x10010001, 0x02010010, 0x20010000,
      0x01000010, 0x0100002A, 0x0200002B].map (fun w : Word => (decode w).toOption) = List.replicate 12 none := by
  decide

/-- Table rows are numbered from bit 0 of the word. -/
theorem test_decodeTableWord : decodeTableWord 32 0x31000000 = some .reassemble := by decide

/-! ### One step from reset -/

/-- Segmenter vector 23 (BQ_CLEAR on an empty queue) as the first command after reset, through the port. -/
theorem test_step_runs_the_placed_word :
    nextOf (step (State.reset.withFetchWord 32 0x33000000)) = some { State.reset with completed := 1 } := by
  decide +kernel

/-- Encoding vector 1: STATUS 0x00050001. -/
theorem test_step_illegal_word :
    seen (step (State.reset.withFetchWord 32 0)) = some ([0, 0, 0, 0], 0x00050001, .none) := by
  decide +kernel

/-- Encoding vector 14: nothing is decoded while halted. -/
theorem test_step_while_halted :
    seen (step ({ State.reset with halted := true, fcause := 5 }.withFetchWord 32 0x10010000)) =
      some ([0, 0, 0, 0], 0x00050001, .none) := by
  decide +kernel

/-! ### Configuration family -/

/-- V-CFG-4: the frame code is checked only by TIMING_INIT. -/
theorem test_cfgWr_frameCode_255 :
    nextOf (execCfgWr .frameCode (start 255 0 .none)) =
      some { start 255 0 .none with cfg := { Cfg.zero with frameCode := 255 } } := by
  decide +kernel

/-- V-CFG-2. -/
theorem test_cfgWr_fft_65536 :
    seen (execCfgWr .fft (start 65536 0 .none)) = some ([0, 0, 0, 0], 0x00000800, .none) := by
  decide +kernel

/-- V-CFG-9: the read sees the previous CERR, then clears it. -/
theorem test_cfgRd_status :
    seen (execCfgRd .status { State.reset with cerr := 8 }) = some ([0x800, 0, 0, 0], 0, .none) := by
  decide +kernel

/-- V-TIM-A: TG_TICKS of configuration 1. -/
theorem test_cfgRd_tgTicks :
    seen (execCfgRd .tgTicks (timed config1 0)) = some ([5555, 0, 0, 0], 2, .none) := by
  decide +kernel

/-! ### MCS family -/

/-- V-MCS-1, MCS 5. -/
theorem test_mcsInfo_qam64_2_3 :
    seen (execMcsInfo .qam64_2_3 State.reset) = some ([6, 0x0203, 96, 144], 0, .none) := by
  decide +kernel

/-- V-MCS-2, MCS 1 (E4). -/
theorem test_blockPlan_100_bytes :
    seen (execBlockPlan .qpsk_1_2 (start 100 0 .none)) = some ([192, 5, 160, 800], 0, .none) := by
  decide +kernel

/-- V-MCS-3 f: the largest operand. -/
theorem test_blockPlan_largest :
    seen (execBlockPlan .bpsk_1_2 (start 4294967295 0 .none)) =
      some ([96, 357913942, 72, 34359738360], 0, .none) := by
  decide +kernel

/-! ### Bit codec family -/

/-- V-COD-1: the results, and the first eight bits. -/
theorem test_serialize_two_packets :
    nextOf (execSerialize (start 0 0 (.burst twoPackets))) =
        some { start 0 0 (.burst twoPackets) with
          r := { r0 := 88, r1 := 2, r2 := 11, r3 := 0 }, dout := .bits (bitsOf twoPackets.flatten) } ∧
      (bitsOf twoPackets.flatten).take 8 = [false, true, false, false, false, false, false, false] := by
  decide +kernel

/-- V-COD-3: three zero bytes after the last packet. -/
theorem test_deserialize_padded :
    seen (execDeserialize (start 0 0 (.bits (bitsOf (twoPackets.flatten ++ [0, 0, 0]))))) =
      some ([2, 11, 1, 3], 0, .burst twoPackets) := by
  decide +kernel

/-- V-LEN-1: bit 3 of byte 1 counts only with `LEN_HI_BITS = 4`, where the command overruns. -/
theorem test_deserialize_len_hi_bits :
    seen (execDeserialize (start 0 0 (.bits (bitsOf [0x40, 0x08, 0x05, 0xAA, 0xBB])))) =
        some ([1, 5, 0, 0], 0, .burst [[0x40, 0x08, 0x05, 0xAA, 0xBB]]) ∧
      seen (execWith { defaultParams 16 with lenHiBits := 4 } .deserialize
        (start 0 0 (.bits (bitsOf [0x40, 0x08, 0x05, 0xAA, 0xBB])))) = some ([0, 0, 0, 0], 0x00000300, .none) := by
  decide +kernel

/-! ### Segmenter family (with a depth of 16, as the vectors assume) -/

/-- Segmenter vector 3. -/
theorem test_segment_three_blocks :
    seen (segmentCmd (defaultParams 16)
        (start 4 0 (.bits [true, false, true, true, false, false, true, true, false, true]))) =
        some ([3, 2, 3, 0], 0, .none) ∧
      queueAfter (segmentCmd (defaultParams 16)
        (start 4 0 (.bits [true, false, true, true, false, false, true, true, false, true]))) =
        some threeBlocks := by
  decide +kernel

/-- Segmenter vector 9: all or nothing. -/
theorem test_segment_full :
    seen (segmentCmd (defaultParams 16) (queued (List.replicate 14 [true]) 4 0
        (.bits [true, false, true, true, false, false, true, true, false, true]))) =
        some ([0, 0, 0, 0], 0x00000500, .none) ∧
      queueAfter (segmentCmd (defaultParams 16) (queued (List.replicate 14 [true]) 4 0
        (.bits [true, false, true, true, false, false, true, true, false, true]))) =
        some (List.replicate 14 [true]) := by
  decide +kernel

/-- Segmenter vector 12. -/
theorem test_reassemble_two_of_three :
    seen (execReassemble (queued threeBlocks 2 4 .none)) =
        some ([8, 1, 0, 0], 0, .bits [true, false, true, true, false, false, true, true]) ∧
      queueAfter (execReassemble (queued threeBlocks 2 4 .none)) = some [[false, true, false, false]] := by
  decide +kernel

/-- Segmenter vector 17: the size is checked before underflow. -/
theorem test_reassemble_bad_size :
    seen (execReassemble (queued [] 5 0 .none)) = some ([0, 0, 0, 0], 0x00000400, .none) := by
  decide +kernel

/-- P4 line 4: the second block of the burst, through the step of a WFB with a queue of 16. -/
theorem test_bqPush_second_block :
    seen (stepWith (defaultParams 16) { State.reset with
        bq := [bitsOf [0x40, 0x00, 0x14, 1, 2, 3, 4, 5, 6, 7, 8, 9]]
        inbox := [.present { cmd := 0x32000000, a0 := 0, a1 := 0
                             din := .bits (bitsOf [0x0A, 0x0B, 0x0C, 0x0D, 0x0E, 0x0F, 0x10, 0x11, 0, 0, 0, 0]) }] }) =
      some ([2, 0, 0, 0], 0, .none) := by
  decide +kernel

/-- Segmenter vector 21. -/
theorem test_bqPush_full :
    seen (bqPushCmd (defaultParams 16) (queued (List.replicate 16 [true]) 0 0 (.bits [true]))) =
      some ([0, 0, 0, 0], 0x00000500, .none) := by
  decide +kernel

/-- Segmenter vector 22. -/
theorem test_bqClear_three :
    seen (execBqClear (queued threeBlocks 0 0 .none)) = some ([3, 0, 0, 0], 0, .none) ∧
      queueAfter (execBqClear (queued threeBlocks 0 0 .none)) = some [] := by
  decide +kernel

/-! ### Timing family -/

/-- V-TIM-A: TIMING_INIT of configuration 1; V-TIM-E: the same with 10^12 ticks a second. -/
theorem test_timingInit_config1 :
    nextOf (execTimingInit { State.reset with cfg := config1 }) =
      some { timed config1 0 with r := { r0 := 27777, r1 := 360, r2 := 80, r3 := 11520000 } } ∧
      seen (execWith { defaultParams 16 with ticksPerSecond := 10 ^ 12 } .timingInit
        { State.reset with cfg := config1 }) = some ([27777777, 360, 80, 11520000], 2, .none) := by
  decide +kernel

/-- V-TIM-F 9: the bandwidth is checked before the frame code. -/
theorem test_timingInit_bad_bandwidth :
    seen (execTimingInit { State.reset with cfg := { config1 with bw := 1000000, frameCode := 7 } }) =
      some ([0, 0, 0, 0], 0x00030001, .none) := by
  decide +kernel

/-- V-TIM-A, MCS 3. -/
theorem test_dataRate_qam16_1_2 :
    seen (execDataRate .qam16_1_2 (timed config1 0)) = some ([13824000, 384, 0, 0], 2, .none) := by
  decide +kernel

/-- V-TIM-A, MCS 5. -/
theorem test_blockTime_qam64_2_3 :
    seen (execBlockTime .qam64_2_3 (timed config1 0)) = some ([41666, 0, 0, 0], 2, .none) := by
  decide +kernel

/-- V-TIM-A, MCS 1, 100 bytes; V-TIM-E: the same with 10^12 ticks a second. -/
theorem test_burstTime_qpsk_1_2 :
    seen (execBurstTime .qpsk_1_2 (timed config1 100)) = some ([277780, 10, 5, 0], 2, .none) ∧
      seen (execWith { defaultParams 16 with ticksPerSecond := 10 ^ 12 } (.burstTime .qpsk_1_2) (timed config1 100)) =
        some ([277780777, 10, 5, 0], 2, .none) := by
  decide +kernel

/-- V-TIM-F 13: the largest operand. -/
theorem test_burstTime_largest :
    seen (execBurstTime .bpsk_1_2 (timed config1 4294967295)) =
      some ([19884107888891, 715827884, 357913942, 0], 2, .none) := by
  decide +kernel

/-- V-TIM-A: NR_SYMBOLS of 100 bytes at MCS 4. -/
theorem test_nrSymbols_qam16_3_4 :
    seen (execNrSymbols .qam16_3_4 (timed config1 100)) = some ([3, 2, 0, 0], 2, .none) := by
  decide +kernel

/-- V-TIM-F 14. -/
theorem test_nrBytes_largest :
    seen (execNrBytes .qam64_3_4 (timed config1 4294967295)) = some ([463856467860, 0, 0, 0], 2, .none) := by
  decide +kernel

/-! ### Witnesses: concrete values that meet the hypotheses of each statement, at a boundary of each clause -/

theorem next_of_nextOf {a : Answer} {s : State} (h : nextOf a = some s) : a = .next s := by
  cases a <;> simp_all [nextOf]

/-- A transaction with no operands. -/
def bare (w : Word) : Transaction := { cmd := w, a0 := 0, a1 := 0, din := .none }

/-- The least usable configuration in each field. -/
def leastConfig : Cfg := { bw := 1250000, fft := 256, gnum := 0, gden := 1, frameCode := 0 }

/-- The greatest usable configuration in each field. -/
def greatestConfig : Cfg := { bw := 4294500000, fft := 1024, gnum := 65535, gden := 65535, frameCode := 6 }

theorem usable_leastConfig : UsableConfig leastConfig :=
  ⟨by decide, by decide, by decide, by decide, by decide, by decide⟩

theorem usable_greatestConfig : UsableConfig greatestConfig :=
  ⟨by decide, by decide, by decide, by decide, by decide, by decide⟩

theorem wellFormed_twoPackets (hi : Nat) (h : hi = 3 ∨ hi = 4) : WellFormedBurst hi twoPackets := by
  intro p hp
  simp only [twoPackets, List.mem_cons, List.not_mem_nil, or_false] at hp
  rcases hp with rfl | rfl
  · rcases h with rfl | rfl <;> exact .inr (by decide)
  · exact .inl (by decide)

theorem qdepth_pos : 1 ≤ params.qdepth := Nat.succ_le_succ (Nat.zero_le _)

theorem witness_AssemblerMakesOnlyLegalWords :
    (∃ l x, assemble l = some x ∧ x.cmd = 0x01000004) ∧
    decode 0x41060000 = .ok (.dataRate .qam64_3_4) ∧
    ∀ mk ∈ [Instr.mcsInfo, .blockPlan, .dataRate, .blockTime, .burstTime, .nrSymbols, .nrBytes],
      Instr.dataRate .qam64_3_4 ≠ mk .code7 :=
  ⟨⟨{ mnemonic := .cfgWr, reg := some .frameCode, a0 := some 4 }, _, rfl, rfl⟩, by decide, by decide⟩

theorem witness_StepRunsTheDecodedCommand : ∃ (s u : State) (x : Transaction) (rest : List HostEvent) (i : Instr),
    s.halted = false ∧ s.inbox = .present x :: rest ∧ decode x.cmd = .ok i ∧
    exec i { s with inbox := rest, a0 := x.a0, a1 := x.a1, din := x.din } = .next u :=
  ⟨{ State.reset with inbox := [.present (bare 0x33000000)] }, _, bare 0x33000000, [], .bqClear, rfl, rfl, by decide,
    rfl⟩

theorem witness_IllegalWordHalts : ∃ (s : State) (x : Transaction) (rest : List HostEvent) (e : IllegalWord),
    s.halted = false ∧ s.inbox = .present x :: rest ∧ decode x.cmd = .error e :=
  ⟨{ State.reset with inbox := [.present (bare 0x0100002A)] }, bare 0x0100002A, [], .readOnlyReg, rfl, rfl, by decide⟩

theorem witness_HaltedMachineIsStuck : ∃ (ts : List Transaction) (s : State) (rest : List HostEvent),
    s.halted = true ∧ ts ≠ [] ∧ s.inbox = ts.map .present ++ rest :=
  ⟨[bare 0, bare 0x20000000],
    { State.reset with halted := true, fcause := 1, inbox := [.present (bare 0), .present (bare 0x20000000), .reset] },
    [.reset], rfl, by decide, rfl⟩

theorem witness_OnlyResetLeavesTheHalt : ∃ s t : State, s.halted = true ∧ step s = .next t ∧
    ∀ rest, s.inbox ≠ .reset :: rest :=
  ⟨{ State.reset with halted := true, fcause := 1, inbox := [.present (bare 0)] }, _, rfl, rfl,
    fun rest h => by cases h⟩

theorem witness_ResetEventRestores : ∃ (s : State) (rest : List HostEvent), s.inbox = .reset :: rest :=
  ⟨{ timed config1 0 with halted := true, fcause := 1, inbox := [.reset] }, [], rfl⟩

theorem witness_FatalIsPrecise : ∃ s t : State, s.halted = false ∧ step s = .next t ∧ t.halted = true :=
  ⟨{ State.reset with inbox := [.present (bare 0x10070000)] }, _, rfl, next_of_nextOf (s :=
    { State.reset with halted := true, fcause := 1, completed := 1 }) (by decide +kernel), rfl⟩

theorem witness_CommandErrorIsPrecise : ∃ (s t : State) (x : Transaction) (rest : List HostEvent),
    s.halted = false ∧ s.inbox = .present x :: rest ∧ step s = .next t ∧ t.cerr ≠ 0 :=
  ⟨{ State.reset with inbox := [.present (bare 0x20000000)] }, _, bare 0x20000000, [], rfl, rfl, next_of_nextOf (s :=
    { State.reset with cerr := 0x0B, completed := 1 }) (by decide +kernel), by decide⟩

theorem witness_TimingNeedsInit : ∃ (s : State) (m : McsCode), m ≠ .code7 ∧ s.tv = false :=
  ⟨State.reset, .qam64_3_4, by decide, rfl⟩

theorem witness_WrongPayloadKindFails :
    (∃ s : State, ∀ b, s.din ≠ .burst b) ∧ ∃ s : State, ∀ b, s.din ≠ .bits b :=
  ⟨⟨start 0 0 (.bits [true]), fun b h => by cases h⟩, ⟨start 0 0 (.burst [[0]]), fun b h => by cases h⟩⟩

theorem witness_OversizedBurstFails :
    (∃ (s : State) (b : Burst), s.din = .burst b ∧ (b.map List.length).sum > 2 ^ 32 - 1) ∧
    (∃ (s : State) (b : Bits), s.din = .bits b ∧ b.length % 8 = 0 ∧ b.length > 8 * (2 ^ 32 - 1)) ∧
    (∃ (s : State) (b : Bits), s.din = .bits b ∧ s.a0.toNat = 1 ∧ b.length > 8 * (2 ^ 32 - 1)) ∧
    ∃ (s : State) (b : Bits), s.din = .bits b ∧ s.a0.toNat = 864 ∧ b.length > 8 * (2 ^ 32 - 1) := by
  have burst : ∀ n, ∃ b : Burst, (b.map List.length).sum = n := fun n => ⟨[List.replicate n 0], by simp⟩
  have bits : ∀ n, ∃ b : Bits, b.length = n := fun n => ⟨zeros n, zeros_length n⟩
  obtain ⟨b, hb⟩ := burst (2 ^ 32)
  obtain ⟨c, hc⟩ := bits (8 * 2 ^ 32)
  obtain ⟨d, hd⟩ := bits (8 * (2 ^ 32 - 1) + 1)
  exact ⟨⟨start 0 0 (.burst b), b, rfl, by omega⟩, ⟨start 0 0 (.bits c), c, rfl, by omega, by omega⟩,
    ⟨start 1 0 (.bits d), d, rfl, rfl, by omega⟩, ⟨start 864 0 (.bits d), d, rfl, rfl, by omega⟩⟩

theorem witness_StepKeepsInvariant : ∃ s t : State, Inv s ∧ s.tv = true ∧ s.bq ≠ [] ∧ step s = .next t :=
  ⟨{ timed greatestConfig 0 with bq := [[true]], inbox := [.present (bare 0x33000000)] }, _,
    { queue_bounded := qdepth_pos
      blocks_sized := by
        intro blk h
        cases List.mem_singleton.mp h
        decide
      cerr_assigned := by decide
      fcause_assigned := by decide
      fcause_iff := by decide
      halted_cerr := by decide
      snapshot_current := fun _ => rfl
      snapshot_usable := fun _ => usable_greatestConfig
      port_idle := by decide }, rfl, by decide, rfl⟩

theorem witness_ReadingCommandsFrame : ∃ (i : Instr) (s t : State), readsOnly i = true ∧ exec i s = .next t :=
  ⟨.mcsInfo .qam64_3_4, timed config1 0, _, rfl, rfl⟩

theorem witness_ConfigurationFrame :
    (∃ s t, exec (.cfgWr .gnum) s = .next t ∧ t.cfg ≠ s.cfg ∧ t.cerr = 0 ∧ s.tv = true ∧ t.tv = false) ∧
    ∃ s t, exec .timingInit s = .next t ∧ t.tcfg ≠ s.tcfg ∧ s.tv = false ∧ t.tv = true :=
  ⟨⟨timed config1 2, _, next_of_nextOf (s := { timed config1 2 with cfg := { config1 with gnum := 2 }, tv := false })
      (by decide +kernel), by decide, by decide, rfl, rfl⟩,
    ⟨{ State.reset with cfg := config1 }, _, next_of_nextOf (s :=
      { timed config1 0 with r := { r0 := 27777, r1 := 360, r2 := 80, r3 := 11520000 } }) (by decide +kernel),
      by decide, rfl, rfl⟩⟩

theorem witness_QueueIsFifo :
    (∃ s t, exec .reassemble s = .next t ∧ t.bq.length < s.bq.length) ∧
    (∃ s t, exec .bqClear s = .next t ∧ s.bq ≠ []) ∧
    (∃ s t, exec .segment s = .next t) ∧ (∃ s t, exec .bqPush s = .next t) ∧
    ∃ s t, exec (.mcsInfo .code7) s = .next t ∧ s.bq ≠ [] ∧ changesQueue (.mcsInfo .code7) = false :=
  ⟨⟨queued threeBlocks 2 4 .none, _, next_of_nextOf (s :=
      { queued [[false, true, false, false]] 2 4 .none with
        r := { r0 := 8, r1 := 1, r2 := 0, r3 := 0 }, dout := .bits [true, false, true, true, false, false, true, true] })
      (by decide +kernel), by decide⟩,
    ⟨queued threeBlocks 0 0 .none, _, rfl, by decide⟩, ⟨State.reset, _, rfl⟩, ⟨State.reset, _, rfl⟩,
    ⟨queued threeBlocks 0 0 .none, _, rfl, by decide, rfl⟩⟩

theorem witness_CfgWrWritesTheRegister :
    (start 0xFFFFFFFF 0 .none).a0.toNat < 2 ^ 32 ∧ (start 0xFFFF 0 .none).a0.toNat < 2 ^ 16 ∧
      (start 0xFF 0 .none).a0.toNat < 2 ^ 8 := by decide

theorem witness_CfgWrRefuses :
    2 ^ 16 ≤ (start 0x10000 0 .none).a0.toNat ∧ 2 ^ 8 ≤ (start 0x100 0 .none).a0.toNat ∧
      Reg.status.isWritable = false := by decide

theorem witness_CfgRdReadsStoredRegisters :
    (∃ s : State, s.bq.length < 2 ^ 64 ∧ s.tv = false) ∧ ∃ s : State, 2 ^ 64 ≤ s.bq.length := by
  have queue : ∀ n, ∃ q : List Block, q.length = n := fun n => ⟨List.replicate n [], List.length_replicate⟩
  obtain ⟨q, hq⟩ := queue (2 ^ 64 - 1)
  obtain ⟨q', hq'⟩ := queue (2 ^ 64)
  exact ⟨⟨queued q 0 0 .none, lt_of_eq_of_lt hq (by decide), rfl⟩, ⟨queued q' 0 0 .none, hq'.ge⟩⟩

theorem witness_CfgRdReadsDerivedRegisters :
    ((timed leastConfig 0).tv = true ∧ UsableConfig (timed leastConfig 0).tcfg) ∧
      (timed greatestConfig 0).tv = true ∧ UsableConfig (timed greatestConfig 0).tcfg :=
  ⟨⟨rfl, usable_leastConfig⟩, rfl, usable_greatestConfig⟩

theorem witness_BlockPlanIsExact : ∃ row, mcsRow params .qam64_3_4 = some row := ⟨_, rfl⟩

theorem witness_BlockAccountingNeverFires :
    0 < 1 ∧ params.Legal ∧ (∃ s t : State, blockPlanCmd params .bpsk_1_2 s = .next t ∧ s.fcause ≠ 0x02) ∧
      ∃ s t : State, step s = .next t ∧ s.fcause ≠ 0x02 :=
  ⟨Nat.one_pos, params_legal,
    ⟨start 1 0 .none, _, next_of_nextOf (s := { start 1 0 .none with r := { r0 := 96, r1 := 1, r2 := 88, r3 := 8 } })
      (by decide +kernel), by decide⟩,
    ⟨State.reset, _, rfl, by decide⟩⟩

theorem witness_BitOrderIsMsbFirst :
    (1 < ([0x80, 0x01] : List Byte).length ∧ 7 < 8) ∧ (zeros 16).length % 8 = 0 ∧ 1 < (zeros 16).length / 8 := by
  decide

theorem witness_SerializeEmitsTheBits :
    ∃ (s : State) (b : Burst), s.din = .burst b ∧ (b.map List.length).sum ≤ 2 ^ 32 - 1 ∧ b.length < 2 ^ 64 ∧
      0 < b.flatten.length :=
  ⟨start 0 0 (.burst twoPackets), twoPackets, rfl, by decide, by decide, by decide⟩

theorem witness_ScanFollowsTheHeaders :
    (headerType (byteAt [0x80, 0, 0, 0, 0] 0) = true ∧ [0x80, 0, 0, 0, (0 : Byte)].length < 6) ∧
    (headerType (byteAt [0x80, 0, 0, 0, 0, 0] 0) = true ∧ 6 ≤ [0x80, 0, 0, 0, 0, (0 : Byte)].length) ∧
    (headerType (byteAt [0x7F, 0] 0) = false ∧ [0x7F, (0 : Byte)].length < 3) ∧
    (headerType (byteAt [0, 0, 0] 0) = false ∧ 3 ≤ [0, 0, (0 : Byte)].length ∧ packetLength 3 [0, 0, 0] = 0) ∧
    (headerType (byteAt [0, 0, 4] 0) = false ∧ 3 ≤ [0, 0, (4 : Byte)].length ∧
      packetLength 3 [0, 0, 4] > [0, 0, (4 : Byte)].length) ∧
    headerType (byteAt [0, 0, 3] 0) = false ∧ 3 ≤ [0, 0, (3 : Byte)].length ∧ 1 ≤ packetLength 3 [0, 0, 3] ∧
      packetLength 3 [0, 0, 3] ≤ [0, 0, (3 : Byte)].length := by
  decide

theorem witness_DeserializeEmitsThePackets :
    (start 0 0 (.bits (bitsOf twoPackets.flatten))).din = .bits (bitsOf twoPackets.flatten) ∧
    (bitsOf twoPackets.flatten).length % 8 = 0 ∧ (bitsOf twoPackets.flatten).length ≤ 8 * (2 ^ 32 - 1) ∧
    scan 3 (bytesOf (bitsOf twoPackets.flatten)) = .ok twoPackets 11 false := by
  decide +kernel

theorem witness_DeserializeFailsWhole :
    [true].length % 8 ≠ 0 ∧
    ((bitsOf [0x40, 0x00]).length % 8 = 0 ∧ scan 3 (bytesOf (bitsOf [0x40, 0x00])) = .err .deserHdrTrunc) ∧
    (bitsOf [0x80, 0, 0, 0, 0]).length % 8 = 0 ∧
      scan 3 (bytesOf (bitsOf [0x80, 0, 0, 0, 0])) = .err .deserOverrun := by
  decide +kernel

theorem witness_RoundTripRecoversTheBurst :
    WellFormedBurst params.lenHiBits twoPackets ∧ 0 < (twoPackets.map List.length).sum ∧
      (twoPackets.map List.length).sum ≤ params.maxBurstBytes ∧ (twoPackets.map List.length).sum < 2 ^ 64 :=
  ⟨wellFormed_twoPackets 3 (.inl rfl), by decide, (by decide : _ ≤ 2 ^ 32 - 1), by decide⟩

theorem witness_PaddedRoundTrip : ∀ k ∈ [0, 1, 2, 3],
    WellFormedBurst 3 twoPackets ∧ (twoPackets.map List.length).sum + k ≤ 2 ^ 32 - 1 ∧
      ∃ s : State, s.din = .bits (bitsOf twoPackets.flatten ++ zeros (8 * k)) :=
  fun k hk => ⟨wellFormed_twoPackets 3 (.inl rfl), by revert k; decide, ⟨start 0 0 _, rfl⟩⟩

theorem witness_SegmentPushesTheBlocks :
    (∃ (s : State) (bits : Bits), s.din = .bits bits ∧ s.a0.toNat = 1 ∧ bits.length ≤ 8 * (2 ^ 32 - 1) ∧
      s.bq.length + ⌈(bits.length : Rat) / s.a0.toNat⌉₊ ≤ params.qdepth) ∧
    ∃ (s : State) (bits : Bits), s.din = .bits bits ∧ s.a0.toNat = 864 ∧ bits.length ≤ 8 * (2 ^ 32 - 1) ∧
      s.bq.length + ⌈(bits.length : Rat) / s.a0.toNat⌉₊ ≤ params.qdepth :=
  ⟨⟨start 1 0 (.bits [true]), [true], rfl, rfl, by decide, by simpa [start, State.reset] using qdepth_pos⟩,
    ⟨start 864 0 (.bits []), [], rfl, rfl, by decide, by simp [start, State.reset]⟩⟩

theorem witness_SegmentRefuses :
    (start 0 0 (.bits [true])).a0.toNat = 0 ∧ 864 < (start 865 0 (.bits [true])).a0.toNat ∧
    ∃ (s : State), s.din = .bits [true] ∧ s.a0.toNat = 1 ∧
      params.qdepth < s.bq.length + ⌈(([true] : Bits).length : Rat) / s.a0.toNat⌉₊ :=
  ⟨rfl, by decide, ⟨queued (List.replicate params.qdepth [true]) 1 0 (.bits [true]), rfl, rfl, by simp [queued]⟩⟩

theorem witness_ReassemblePopsTheBlocks :
    (∃ s : State, s.a1.toNat = 1 ∧ s.a0.toNat = s.bq.length ∧ 0 < s.bq.length ∧
      ∀ blk ∈ s.bq.take s.a0.toNat, blk.length = s.a1.toNat) ∧
    ∃ s : State, s.a1.toNat = 864 ∧ s.a0.toNat < s.bq.length ∧
      ∀ blk ∈ s.bq.take s.a0.toNat, blk.length = s.a1.toNat :=
  ⟨⟨queued [[true]] 1 1 .none, rfl, rfl, by decide, by decide⟩,
    ⟨queued [zeros 864, [true]] 1 864 .none, rfl, by decide, fun blk h => by
      cases List.mem_singleton.mp h
      exact zeros_length 864⟩⟩

theorem witness_ReassembleRefuses :
    (queued [[true]] 1 0 .none).a1.toNat = 0 ∧ 864 < (queued [[true]] 1 865 .none).a1.toNat ∧
    (queued [[true]] 2 1 .none).bq.length < (queued [[true]] 2 1 .none).a0.toNat ∧
    (queued [[true]] 1 2 .none).a0.toNat ≤ (queued [[true]] 1 2 .none).bq.length ∧
      ∃ blk ∈ (queued [[true]] 1 2 .none).bq.take 1, blk.length ≠ (queued [[true]] 1 2 .none).a1.toNat := by
  decide

theorem witness_BqPushAppendsOneBlock :
    (∃ s : State, s.din = .bits (zeros 1) ∧ s.bq.length < params.qdepth) ∧
    (∃ s : State, s.din = .bits (zeros 864) ∧ s.bq.length < params.qdepth) ∧
    (∃ s : State, s.din = .bits []) ∧ (∃ s : State, s.din = .bits (zeros 865)) ∧
    ∃ s : State, s.din = .bits (zeros 1) ∧ s.bq.length = params.qdepth :=
  ⟨⟨start 0 0 _, rfl, qdepth_pos⟩, ⟨start 0 0 _, rfl, qdepth_pos⟩, ⟨start 0 0 _, rfl⟩, ⟨start 0 0 _, rfl⟩,
    ⟨queued (List.replicate params.qdepth [true]) 0 0 _, rfl, List.length_replicate⟩⟩

theorem witness_BqClearEmptiesTheQueue : (queued threeBlocks 0 0 .none).bq.length < 2 ^ 64 := by decide

theorem witness_SegmentReassembleLaw : ∃ (s : State) (bits : Bits) (bs k : Word), s.bq = [] ∧
    bits.length ≤ 8 * params.maxBurstBytes ∧ bs.toNat = 1 ∧ 1 ≤ params.maxBlockBits ∧ 0 < k.toNat ∧
    k.toNat = ⌈(bits.length : Rat) / bs.toNat⌉₊ ∧ k.toNat ≤ params.qdepth :=
  ⟨State.reset, [true], 1, 1, rfl, (by decide : 1 ≤ 8 * (2 ^ 32 - 1)), rfl, (by decide : 1 ≤ 864), by decide, by simp, qdepth_pos⟩

theorem witness_PlanSegmentReassembleAgree : ∃ (s : State) (row : McsRow) (bits : Bits) (bytes : Word),
    params.Legal ∧ mcsRow params .bpsk_1_2 = some row ∧ bits.length = 8 * bytes.toNat ∧ 0 < bytes.toNat ∧
    bytes.toNat ≤ params.maxBurstBytes ∧ s.bq = [] ∧
    ⌈(bits.length : Rat) / (8 * row.payloadBytes : Rat)⌉₊ ≤ params.qdepth := by
  refine ⟨State.reset, _, zeros 96, 12, params_legal, rfl, zeros_length 96, by decide, (by decide : 12 ≤ 2 ^ 32 - 1), rfl, ?_⟩
  rw [zeros_length]
  exact le_trans (Nat.ceil_le.mpr (by simp [params, defaultParams, defaultMcsTable]; norm_num)) qdepth_pos

theorem witness_TimingInitLatches : ∃ s s' : State, UsableConfig s.cfg ∧ UsableConfig s'.cfg ∧ s.cfg ≠ s'.cfg :=
  ⟨{ State.reset with cfg := leastConfig }, { State.reset with cfg := greatestConfig }, usable_leastConfig,
    usable_greatestConfig, by decide⟩

theorem witness_TimingInitHalts :
    ¬ 1 ≤ State.reset.cfg.bw.toNat ∧
    (∀ k ∈ [1750000, 1500000, 1250000, 2750000, 2000000],
      ({ config1 with bw := 1000000 } : Cfg).bw.toNat % k ≠ 0) ∧
    (∃ k ∈ [1750000, 1500000, 1250000, 2750000, 2000000],
      ({ config1 with frameCode := 7 } : Cfg).bw.toNat % k = 0) ∧
    6 < ({ config1 with frameCode := 7 } : Cfg).frameCode.toNat ∧
    1 ≤ config1.bw.toNat ∧ 256 ≤ config1.fft.toNat ∧ config1.fft.toNat ≤ 1024 ∧ 1 ≤ config1.gden.toNat ∧
      config1.gnum.toNat ≤ config1.gden.toNat := by
  decide

/-- The hypotheses of DataRateIsExact, BlockTimeIsExact, BurstTimeIsExact, NrSymbolsIsExact and NrBytesIsExact. -/
theorem witness_DataRateIsExact : ∃ (s : State) (row : McsRow), mcsRow params .qam64_3_4 = some row ∧ s.tv = true ∧
    UsableConfig s.tcfg :=
  ⟨timed greatestConfig 0xFFFFFFFF, _, rfl, rfl, usable_greatestConfig⟩

theorem witness_BlockTimeIsExact : ∃ (s : State) (row : McsRow), mcsRow params .bpsk_1_2 = some row ∧ s.tv = true ∧
    UsableConfig s.tcfg :=
  ⟨timed leastConfig 0, _, rfl, rfl, usable_leastConfig⟩

theorem witness_BurstTimeIsExact : ∃ (s : State) (row : McsRow), mcsRow params .bpsk_1_2 = some row ∧ s.tv = true ∧
    UsableConfig s.tcfg ∧ s.a0.toNat = 2 ^ 32 - 1 :=
  ⟨timed leastConfig 0xFFFFFFFF, _, rfl, rfl, usable_leastConfig, rfl⟩

theorem witness_NrSymbolsIsExact : ∃ (s : State) (row : McsRow), mcsRow params .bpsk_1_2 = some row ∧ s.tv = true ∧
    s.a0.toNat = 2 ^ 32 - 1 :=
  ⟨timed leastConfig 0xFFFFFFFF, _, rfl, rfl, rfl⟩

theorem witness_NrSymbolsIsBurstTimeR1 :
    (∃ s : State, s.tv = true ∧ UsableConfig s.tcfg) ∧
    ∃ s s' t t' : State, s.tv = true ∧ s'.tv = true ∧ s.a0 = s'.a0 ∧ s ≠ s' ∧
      exec (.nrSymbols .qpsk_1_2) s = .next t ∧ exec (.nrSymbols .qpsk_1_2) s' = .next t' :=
  ⟨⟨timed greatestConfig 0, rfl, usable_greatestConfig⟩,
    ⟨timed config1 24, timed leastConfig 24, _, _, rfl, rfl, rfl, by decide,
      next_of_nextOf (s := { timed config1 24 with r := { r0 := 2, r1 := 1, r2 := 0, r3 := 0 } }) (by decide +kernel),
      next_of_nextOf (s := { timed leastConfig 24 with r := { r0 := 2, r1 := 1, r2 := 0, r3 := 0 } })
        (by decide +kernel)⟩⟩

theorem witness_NrBytesIsExact : ∃ (s : State) (row : McsRow), mcsRow params .qam64_3_4 = some row ∧ s.tv = true ∧
    s.a0.toNat = 2 ^ 32 - 1 :=
  ⟨timed config1 0xFFFFFFFF, _, rfl, rfl, rfl⟩

/-- The hypotheses of RatesAreExact, SymbolsCarryTheBytes and BurstCoversItsBlocks. -/
theorem witness_RatesAreExact : params.Legal ∧ (∃ row, mcsRow params .qam64_2_3 = some row) ∧ 0 < ts params config1 :=
  ⟨params_legal, ⟨_, rfl⟩, by decide +kernel⟩

theorem witness_SymbolsCarryTheBytes : params.Legal ∧ ∃ row, mcsRow params .bpsk_1_2 = some row :=
  ⟨params_legal, _, rfl⟩

theorem witness_BurstCoversItsBlocks :
    params.Legal ∧ (∃ row, mcsRow params .qpsk_3_4 = some row) ∧ 0 < ts params leastConfig :=
  ⟨params_legal, ⟨_, rfl⟩, by decide +kernel⟩

theorem witness_TransmitterReceiverAgree : ∃ s s' : State, s.tv = true ∧ s'.tv = true ∧ s.tcfg = s'.tcfg ∧
    s.a0 = s'.a0 ∧ s ≠ s' :=
  ⟨timed config1 100, { timed config1 100 with bq := threeBlocks, completed := 7 }, rfl, rfl, rfl, rfl, by decide⟩

theorem witness_AnyParametersStep : ∃ (s u : State) (x : Transaction) (rest : List HostEvent) (i : Instr),
    s.halted = false ∧ s.inbox = .present x :: rest ∧ decode x.cmd = .ok i ∧
    execWith (defaultParams 16) i { s with inbox := rest, a0 := x.a0, a1 := x.a1, din := x.din } = .next u :=
  ⟨{ State.reset with inbox := [.present (bare 0x10010000)] }, _, bare 0x10010000, [], .mcsInfo .qpsk_1_2, rfl, rfl,
    by decide, rfl⟩

theorem witness_AnyParametersKeepInvariant :
    ∃ s t : State, InvWith (defaultParams 1) s ∧ s.tv = true ∧ s.bq.length = 1 ∧ stepWith (defaultParams 1) s = .next t :=
  ⟨{ timed config1 0 with bq := [[true]], inbox := [.present (bare 0x33000000)] }, _,
    { queue_bounded := le_rfl
      blocks_sized := by
        intro blk h
        cases List.mem_singleton.mp h
        decide
      cerr_assigned := by decide
      fcause_assigned := by decide
      fcause_iff := by decide
      halted_cerr := by decide
      snapshot_current := fun _ => rfl
      snapshot_usable := fun _ =>
        ⟨by decide, by decide, by decide, by decide, by decide, by decide +kernel, by decide +kernel⟩
      port_idle := by decide }, rfl, rfl, rfl⟩

end Sys2Proof.Tests
end

section
/-! PROOF. The state after reset, field by field (10_state.md R15, R30), and what an empty queue is (R24). -/

namespace Sys2Proof.Machine

@[simp] theorem State.reset_cfg : State.reset.cfg = Cfg.zero := rfl
@[simp] theorem State.reset_tv : State.reset.tv = false := rfl
@[simp] theorem State.reset_tcfg : State.reset.tcfg = Cfg.zero := rfl
@[simp] theorem State.reset_r : State.reset.r = Results.zero := rfl
@[simp] theorem State.reset_halted : State.reset.halted = false := rfl
@[simp] theorem State.reset_cerr : State.reset.cerr = 0 := rfl
@[simp] theorem State.reset_fcause : State.reset.fcause = 0 := rfl
@[simp] theorem State.reset_bq : State.reset.bq = [] := rfl

theorem bqLevel_eq_zero_iff {s : State} : bqLevel s = 0 ↔ s.bq = [] := List.length_eq_zero_iff

/-- Settles O10, row by row of the table of R30. -/
theorem resetStateHoldsTheTable : Obligations.ResetStateHoldsTheTable :=
  have levelZero : bqLevel State.reset = 0 := bqLevel_eq_zero_iff.mpr State.reset_bq
  ⟨State.reset_cfg, State.reset_tv, State.reset_tcfg, State.reset_r, State.reset_halted, State.reset_cerr,
    State.reset_fcause, State.reset_bq, levelZero⟩

end Sys2Proof.Machine
end

section
/-! PROOF. The MSB-first byte and bit conversions of 20_memory.md R38: one byte each way, then byte sequences and bit
sequences by recursion, a byte or eight bits at a time. -/

namespace Sys2Proof.Machine

/-! ### One byte -/

theorem bitsOfByte_getElem? (b : Byte) {k : Nat} (hk : k < 8) : (bitsOfByte b)[k]? = some (b.getLsbD (7 - k)) := by
  interval_cases k <;> rfl

/-- The byte's value is the weighted sum of R38: eight bits stay below 2^8, so nothing is cut off. -/
theorem byteOfBits_toNat (b7 b6 b5 b4 b3 b2 b1 b0 : Bool) :
    (byteOfBits b7 b6 b5 b4 b3 b2 b1 b0).toNat = b7.toNat * 128 + b6.toNat * 64 + b5.toNat * 32 + b4.toNat * 16 +
      b3.toNat * 8 + b2.toNat * 4 + b1.toNat * 2 + b0.toNat := by
  refine Nat.mod_eq_of_lt ?_
  have := b7.toNat_lt; have := b6.toNat_lt; have := b5.toNat_lt; have := b4.toNat_lt
  have := b3.toNat_lt; have := b2.toNat_lt; have := b1.toNat_lt; have := b0.toNat_lt
  omega

theorem ofBits_getLsbD (b : Byte) : Nat.ofBits (fun i : Fin 8 => b.getLsbD i) = b.toNat :=
  (Nat.ofBits_testBit b.toNat 8).trans (Nat.mod_eq_of_lt b.isLt)

/-- The weighted sum of R38 and the doubling form of `Nat.ofBits` are the same number. -/
theorem byteOfBits_toNat_eq_ofBits (f : Fin 8 → Bool) :
    (byteOfBits (f 7) (f 6) (f 5) (f 4) (f 3) (f 2) (f 1) (f 0)).toNat = Nat.ofBits f := by
  have doubling : Nat.ofBits f = 2 * (2 * (2 * (2 * (2 * (2 * (2 * (2 * 0 + (f 7).toNat) + (f 6).toNat) +
      (f 5).toNat) + (f 4).toNat) + (f 3).toNat) + (f 2).toNat) + (f 1).toNat) + (f 0).toNat := rfl
  rw [byteOfBits_toNat, doubling]
  omega

theorem byteOfBits_getLsbD (b : Byte) :
    byteOfBits (b.getLsbD 7) (b.getLsbD 6) (b.getLsbD 5) (b.getLsbD 4) (b.getLsbD 3) (b.getLsbD 2) (b.getLsbD 1)
      (b.getLsbD 0) = b :=
  BitVec.eq_of_toNat_eq <| (byteOfBits_toNat_eq_ofBits fun i => b.getLsbD i).trans (ofBits_getLsbD b)

/-! ### Byte sequences to bits -/

theorem bitsOf_getElem? (B : List Byte) {j k : Nat} (hj : j < B.length) (hk : k < 8) :
    (bitsOf B)[8 * j + k]? = some ((B.getD j 0).getLsbD (7 - k)) := by
  induction B generalizing j with
  | nil => cases hj
  | cons b B ih =>
    cases j with
    | zero => simpa [List.getElem?_append_left (l₁ := bitsOfByte b) hk] using bitsOfByte_getElem? b hk
    | succ j =>
      have skipByte : 8 * (j + 1) + k = (bitsOfByte b).length + (8 * j + k) := by simp; omega
      rw [bitsOf_cons, skipByte, List.getElem?_append_right (Nat.le_add_right _ _), Nat.add_sub_cancel_left,
        List.getD_cons_succ]
      exact ih (Nat.lt_of_succ_lt_succ hj)

theorem bytesOf_bitsOfByte_append (b : Byte) (s : Bits) : bytesOf (bitsOfByte b ++ s) = b :: bytesOf s :=
  congrArg (· :: bytesOf s) (byteOfBits_getLsbD b)

theorem bytesOf_bitsOf (B : List Byte) : bytesOf (bitsOf B) = B := by
  induction B with
  | nil => rfl
  | cons b B ih => rw [bitsOf_cons, bytesOf_bitsOfByte_append, ih]

/-! ### Bit sequences to bytes -/

@[simp] theorem bytesOf_cons (b7 b6 b5 b4 b3 b2 b1 b0 : Bool) (rest : Bits) :
    bytesOf (b7 :: b6 :: b5 :: b4 :: b3 :: b2 :: b1 :: b0 :: rest) =
      byteOfBits b7 b6 b5 b4 b3 b2 b1 b0 :: bytesOf rest := rfl

theorem exists_cons_of_eight_le_length {s : Bits} (h : 8 ≤ s.length) :
    ∃ b7 b6 b5 b4 b3 b2 b1 b0 rest, s = b7 :: b6 :: b5 :: b4 :: b3 :: b2 :: b1 :: b0 :: rest :=
  match s, h with
  | b7 :: b6 :: b5 :: b4 :: b3 :: b2 :: b1 :: b0 :: rest, _ => ⟨b7, b6, b5, b4, b3, b2, b1, b0, rest, rfl⟩

/-- The induction that follows `bytesOf` on the sequences R38 gives it: no bits, or eight bits and a whole number of
bytes after them. -/
theorem wholeBytes_induction {motive : Bits → Prop} (nil : motive [])
    (cons : ∀ b7 b6 b5 b4 b3 b2 b1 b0 rest, motive rest →
      motive (b7 :: b6 :: b5 :: b4 :: b3 :: b2 :: b1 :: b0 :: rest))
    (n : Nat) : ∀ s : Bits, s.length = 8 * n → motive s := by
  induction n with
  | zero =>
    intro s empty
    rwa [List.eq_nil_of_length_eq_zero empty]
  | succ n ih =>
    intro s whole
    obtain ⟨b7, b6, b5, b4, b3, b2, b1, b0, rest, rfl⟩ :=
      exists_cons_of_eight_le_length (s := s) (whole ▸ Nat.le_add_left 8 (8 * n))
    have restWhole : rest.length = 8 * n := by simp only [List.length_cons] at whole; omega
    exact cons b7 b6 b5 b4 b3 b2 b1 b0 rest (ih rest restWhole)

theorem bytesOf_length_of_wholeBytes {n : Nat} {s : Bits} (whole : s.length = 8 * n) :
    (bytesOf s).length = s.length / 8 := by
  refine wholeBytes_induction (motive := fun s => (bytesOf s).length = s.length / 8) rfl ?_ n s whole
  intro b7 b6 b5 b4 b3 b2 b1 b0 rest ih
  simp only [bytesOf_cons, List.length_cons, ih]
  omega

/-- The bytes of R38's `bytes_of(s)`: byte `k` is the weighted sum of the bits `s[8k]` to `s[8k+7]`. -/
def BytesAreWeightedSums (s : Bits) : Prop :=
  ∀ k < s.length / 8, ((bytesOf s).getD k 0).toNat =
    ∑ j ∈ Finset.range 8, (s.getD (8 * k + j) false).toNat * 2 ^ (7 - j)

theorem bytesAreWeightedSums_cons (b7 b6 b5 b4 b3 b2 b1 b0 : Bool) (rest : Bits) (ih : BytesAreWeightedSums rest) :
    BytesAreWeightedSums (b7 :: b6 :: b5 :: b4 :: b3 :: b2 :: b1 :: b0 :: rest) := by
  intro k hk
  cases k with
  | zero => simp [byteOfBits_toNat, Finset.sum_range_succ]
  | succ k =>
    have restLong : k < rest.length / 8 := by simp only [List.length_cons] at hk; omega
    have skipByte (j : Nat) : 8 * (k + 1) + j = 8 * k + j + 8 := by omega
    simpa only [bytesOf_cons, skipByte, List.getD_cons_succ] using ih k restLong

theorem bytesAreWeightedSums_of_wholeBytes {n : Nat} {s : Bits} (whole : s.length = 8 * n) : BytesAreWeightedSums s :=
  wholeBytes_induction (fun _ hk => absurd hk (Nat.not_lt_zero _)) bytesAreWeightedSums_cons n s whole

/-- Settles O31: the length and the bits of `bitsOf`, the round trip, then the length and the bytes of `bytesOf`. -/
theorem bitOrderIsMsbFirst : Obligations.BitOrderIsMsbFirst := by
  refine ⟨fun B => ⟨bitsOf_length B, fun _ _ => bitsOf_getElem? B, bytesOf_bitsOf B⟩, fun s divisible => ?_⟩
  have whole : s.length = 8 * (s.length / 8) := (Nat.mul_div_cancel' (Nat.dvd_of_mod_eq_zero divisible)).symm
  exact ⟨bytesOf_length_of_wholeBytes whole, bytesAreWeightedSums_of_wholeBytes whole⟩

end Sys2Proof.Machine
end

section
/-! PROOF. Exact rounding (00_scope.md R10) and the rows of a legal MCS table (41_mcs_table.md R81 to R83). -/

namespace Sys2Proof.Machine

/-! ### The ceiling of a division -/

/-- The model's `ceil_div` is Mathlib's, so the Galois connection that defines that one defines it too. -/
theorem ceilDiv_le_iff {a b c : Nat} (pos : 0 < b) : ceilDiv a b ≤ c ↔ a ≤ c * b := by
  rw [ceilDiv, ← Nat.ceilDiv_eq_add_pred_div, ceilDiv_le_iff_le_mul pos, Nat.mul_comm]

theorem le_ceilDiv_mul (a : Nat) {b : Nat} (pos : 0 < b) : a ≤ ceilDiv a b * b :=
  (ceilDiv_le_iff pos).mp le_rfl

theorem ceilDiv_eq_natCeil (a : Nat) {b : Nat} (pos : 0 < b) : ceilDiv a b = ⌈(a : Rat) / b⌉₊ := by
  refine eq_of_forall_ge_iff fun c => ?_
  rw [ceilDiv_le_iff pos, Nat.ceil_le, div_le_iff₀ (Nat.cast_pos.mpr pos)]
  exact_mod_cast Iff.rfl

theorem paddingBits_lt (bits : Nat) {bs : Nat} (pos : 0 < bs) : paddingBits (ceilDiv bits bs) bs bits < bs := by
  have rounded : ceilDiv bits bs * bs ≤ bits + bs - 1 := Nat.div_mul_le_self _ _
  unfold paddingBits
  omega

/-! ### Register values as operands -/

/-- A result that fits an operand comes back through it unchanged. -/
theorem toReg_setWidth_toNat {v : Nat} (h : v < 2 ^ 32) : ((toReg v).setWidth 32).toNat = v := by
  rw [BitVec.toNat_setWidth, toReg_toNat (h.trans (by decide)), Nat.mod_eq_of_lt h]

/-! ### The rows of a legal table -/

theorem mcsRow_legal {P : Params} {m : McsCode} {row : McsRow} (legal : P.Legal) (selected : mcsRow P m = some row) :
    row.Legal P.maxBlockBits := by
  cases m with
  | code7 => cases selected
  | bpsk_1_2 => exact Option.some.inj selected ▸ legal.rows 0
  | qpsk_1_2 => exact Option.some.inj selected ▸ legal.rows 1
  | qpsk_3_4 => exact Option.some.inj selected ▸ legal.rows 2
  | qam16_1_2 => exact Option.some.inj selected ▸ legal.rows 3
  | qam16_3_4 => exact Option.some.inj selected ▸ legal.rows 4
  | qam64_2_3 => exact Option.some.inj selected ▸ legal.rows 5
  | qam64_3_4 => exact Option.some.inj selected ▸ legal.rows 6

theorem payloadBits_range {row : McsRow} {maxBlockBits : Nat} (legal : row.Legal maxBlockBits) :
    96 ≤ payloadBits row ∧ payloadBits row ≤ 864 := by
  have := legal.payload_range
  unfold payloadBits
  omega

theorem payloadBits_pos {row : McsRow} {maxBlockBits : Nat} (legal : row.Legal maxBlockBits) : 0 < payloadBits row :=
  lt_of_lt_of_le (by decide) (payloadBits_range legal).1

theorem badBlockSize_eq_false_iff {P : Params} {bs : Nat} :
    badBlockSize P bs = false ↔ 0 < bs ∧ bs ≤ P.maxBlockBits := by
  simp [badBlockSize, Nat.pos_iff_ne_zero]

theorem badBlockSize_payloadBits {P : Params} {row : McsRow} (legal : row.Legal P.maxBlockBits) :
    badBlockSize P (payloadBits row) = false :=
  badBlockSize_eq_false_iff.mpr ⟨payloadBits_pos legal, legal.payload_fits⟩

end Sys2Proof.Machine
end

section
/-! PROOF. UNKNOWN_MCS, the fatal that every use of code 7 raises (41_mcs_table.md R84). -/

namespace Sys2Proof.Machine

section
variable {P : Params} {s : State}

@[simp] theorem mcsRow_code7 : mcsRow P .code7 = none := rfl

theorem raiseFatal_haltsWith (c : FatalCause) (s : State) : HaltsWith (raiseFatal c s) s (fatalCode c) := rfl

/-- Code 7 selects no row, so what the command would do with a row does not matter. -/
@[simp] theorem withMcs_code7 (k : McsRow → Answer) : withMcs P .code7 s k = raiseFatal .unknownMcs s := by
  rw [withMcs, mcsRow_code7]

/-- The check of the MCS code comes before the check of TV (44_timing.md R127). -/
@[simp] theorem withTiming_code7 (k : McsRow → Answer) : withTiming P .code7 s k = raiseFatal .unknownMcs s :=
  withMcs_code7 _

end

/-- Settles O14: MCS_INFO and BLOCK_PLAN begin with the check of the MCS code, the five timing commands with the timing
checks, so all seven end in the same fatal. -/
theorem unknownMcsHalts : Obligations.UnknownMcsHalts := by
  refine ⟨fun _ => mcsRow_code7, fun s => ?_⟩
  simp only [List.forall_mem_cons, List.not_mem_nil, false_implies, implies_true, and_true, exec,
    execMcsInfo, mcsInfoCmd, execBlockPlan, blockPlanCmd, withMcs_code7,
    execDataRate, dataRateCmd, execBlockTime, blockTimeCmd, execBurstTime, burstTimeCmd, execNrSymbols, nrSymbolsCmd,
    execNrBytes, nrBytesCmd, withTiming_code7, and_self]
  exact raiseFatal_haltsWith .unknownMcs s

end Sys2Proof.Machine
end

section
/-! PROOF. BLOCK_ACCOUNTING, the fatal that nothing raises (41_mcs_table.md R90). -/

namespace Sys2Proof.Machine

section
variable {P : Params} {s : State}

/-! ### What keeps the cause out of FCAUSE -/

/-- FCAUSE does not hold BLOCK_ACCOUNTING after this answer. -/
def AvoidsBlockAccounting (a : Answer) : Prop := ∀ t, a = .next t → t.fcause ≠ fatalCode .blockAccounting

theorem fatalCode_eq_blockAccounting_iff {c : FatalCause} :
    fatalCode c = fatalCode .blockAccounting ↔ c = .blockAccounting := by
  cases c <;> decide

theorem avoids_next (h : s.fcause ≠ fatalCode .blockAccounting) : AvoidsBlockAccounting (.next s) := by
  rintro t ⟨⟩
  exact h

theorem avoids_complete {r : Results} {d : Payload} (h : s.fcause ≠ fatalCode .blockAccounting) :
    AvoidsBlockAccounting (complete r d s) :=
  avoids_next h

theorem avoids_raiseCErr {e : CmdError} (h : s.fcause ≠ fatalCode .blockAccounting) :
    AvoidsBlockAccounting (raiseCErr e s) :=
  avoids_next h

theorem avoids_raiseFatal {c : FatalCause} (other : c ≠ .blockAccounting) :
    AvoidsBlockAccounting (raiseFatal c s) :=
  avoids_next (mt fatalCode_eq_blockAccounting_iff.mp other)

theorem avoids_ite {p : Prop} [Decidable p] {a b : Answer} (ha : AvoidsBlockAccounting a)
    (hb : AvoidsBlockAccounting b) : AvoidsBlockAccounting (if p then a else b) := by
  split
  · exact ha
  · exact hb

theorem avoids_withMcs {m : McsCode} {k : McsRow → Answer}
    (h : ∀ row, mcsRow P m = some row → AvoidsBlockAccounting (k row)) :
    AvoidsBlockAccounting (withMcs P m s k) := by
  intro t ht
  rcases withMcs_cases ht with ⟨-, raised⟩ | ⟨row, selected, ran⟩
  · exact avoids_raiseFatal (by decide) t raised
  · exact h row selected t ran

theorem avoids_withTiming {m : McsCode} {k : McsRow → Answer} (h : ∀ row, AvoidsBlockAccounting (k row)) :
    AvoidsBlockAccounting (withTiming P m s k) :=
  avoids_withMcs fun row _ => avoids_ite (h row) (avoids_raiseFatal (by decide))

theorem avoids_retireAnswer {a : Answer} (h : AvoidsBlockAccounting a) : AvoidsBlockAccounting (retireAnswer a) := by
  intro t ht
  obtain ⟨u, hu, rfl⟩ := retireAnswer_eq_next_iff.mp ht
  exact h u hu

/-! ### No command and no step raises it -/

/-- The one command that has the check: it never fires, because enough blocks are planned (R90). -/
theorem blockPlanCmd_avoids {m : McsCode} (legal : P.Legal) (h : s.fcause ≠ fatalCode .blockAccounting) :
    AvoidsBlockAccounting (blockPlanCmd P m s) := by
  refine avoids_withMcs fun row selected => avoids_ite (avoids_raiseCErr h) ?_
  rw [if_neg (le_ceilDiv_mul _ (payloadBits_pos (mcsRow_legal legal selected))).not_gt]
  exact avoids_complete h

theorem execWith_avoids (legal : P.Legal) (i : Instr) (h : s.fcause ≠ fatalCode .blockAccounting) :
    AvoidsBlockAccounting (execWith P i s) := by
  have completes (s' : State) (r : Results) (d : Payload) (same : s'.fcause = s.fcause) :
      AvoidsBlockAccounting (complete r d s') := avoids_complete (same ▸ h)
  have fails (e : CmdError) : AvoidsBlockAccounting (raiseCErr e s) := avoids_raiseCErr h
  cases i with
  | cfgWr reg =>
    simp only [execWith, execCfgWr]
    split
    · exact avoids_raiseFatal (by decide)
    · exact avoids_ite (fails _) (completes _ _ _ rfl)
  | cfgRd reg => exact avoids_ite (fails _) (completes _ _ _ rfl)
  | mcsInfo m => exact avoids_withMcs fun _ _ => completes _ _ _ rfl
  | blockPlan m => exact blockPlanCmd_avoids legal h
  | serialize =>
    simp only [execWith, serializeCmd]
    split
    · exact fails _
    · exact avoids_ite (fails _) (completes _ _ _ rfl)
  | deserialize =>
    simp only [execWith, deserializeCmd]
    split
    · exact fails _
    · refine avoids_ite (fails _) (avoids_ite (fails _) ?_)
      split
      · exact fails _
      · exact completes _ _ _ rfl
  | segment =>
    simp only [execWith, segmentCmd]
    split
    · exact fails _
    · exact avoids_ite (fails _) (avoids_ite (fails _) (avoids_ite (fails _) (completes _ _ _ rfl)))
  | reassemble => exact avoids_ite (fails _) (avoids_ite (fails _) (avoids_ite (fails _) (completes _ _ _ rfl)))
  | bqPush =>
    simp only [execWith, bqPushCmd]
    split
    · exact fails _
    · exact avoids_ite (fails _) (avoids_ite (fails _) (completes _ _ _ rfl))
  | bqClear => exact completes _ _ _ rfl
  | timingInit =>
    have fatal {c : FatalCause} (other : c ≠ .blockAccounting) := avoids_raiseFatal (s := s) other
    exact avoids_ite (fatal (by decide)) (avoids_ite (fatal (by decide)) (avoids_ite (fatal (by decide))
      (avoids_ite (fatal (by decide)) (completes _ _ _ rfl))))
  | dataRate m => exact avoids_withTiming fun _ => completes _ _ _ rfl
  | blockTime m => exact avoids_withTiming fun _ => avoids_ite (fails _) (completes _ _ _ rfl)
  | burstTime m => exact avoids_withTiming fun _ => avoids_ite (fails _) (avoids_ite (fails _) (completes _ _ _ rfl))
  | nrSymbols m => exact avoids_withTiming fun _ => avoids_ite (fails _) (completes _ _ _ rfl)
  | nrBytes m => exact avoids_withTiming fun _ => completes _ _ _ rfl

theorem stepWith_avoids (legal : P.Legal) (h : s.fcause ≠ fatalCode .blockAccounting) :
    AvoidsBlockAccounting (stepWith P s) := by
  unfold stepWith
  rcases takeEvent_cases (run := execWith P) (s := s) rfl with
    ⟨-, idle⟩ | ⟨rest, -, reset⟩ | ⟨x, rest, -, -, halted⟩ | ⟨x, rest, e, -, -, -, illegal⟩ | ⟨x, rest, i, -, -, -, ran⟩
  · exact idle ▸ avoids_next h
  · exact reset ▸ avoids_next (by simp [fatalCode])
  · exact halted ▸ avoids_next h
  · exact illegal ▸ avoids_retireAnswer (avoids_raiseFatal (by decide))
  · exact ran ▸ avoids_retireAnswer (execWith_avoids legal i h)

end

/-- Settles O30: the arithmetic fact of R90, BLOCK_PLAN with any legal parameters, and every step. -/
theorem blockAccountingNeverFires : Obligations.BlockAccountingNeverFires := by
  refine ⟨fun bits bs pos => (le_ceilDiv_mul bits pos).not_gt, fun P legal m s t planned h => ?_,
    fun s t stepped h => ?_⟩
  · exact blockPlanCmd_avoids legal h t planned
  · exact stepWith_avoids params_legal h t (stepWith_params ▸ stepped)

end Sys2Proof.Machine
end

section
/-! PROOF. The completions of BLOCK_PLAN, SEGMENT and REASSEMBLE, and their agreement on one burst (41_mcs_table.md R89,
R92; 43_segmenter.md R105, R108). -/

namespace Sys2Proof.Machine

section
variable {P : Params} {s : State} {bits : Bits}

/-! ### The blocks of a bit sequence -/

/-- The bits filled up with zeros to a whole number of blocks of `bs` bits (43_segmenter.md R105). -/
def padded (bs : Nat) (bits : Bits) : Bits :=
  bits ++ zeros (paddingBits (ceilDiv bits.length bs) bs bits.length)

/-- The blocks SEGMENT makes of `bits` (43_segmenter.md R105). -/
def paddedBlocks (bs : Nat) (bits : Bits) : List Block := splitBlocks bs (ceilDiv bits.length bs) (padded bs bits)

theorem length_of_mem_splitBlocks {bs k : Nat} {t : Bits} (wholeBlocks : t.length = k * bs) :
    ∀ blk ∈ splitBlocks bs k t, blk.length = bs := by
  induction k generalizing t with
  | zero => simp [splitBlocks]
  | succ k ih =>
    rw [Nat.succ_mul] at wholeBlocks
    have head : (t.take bs).length = bs := by simp [wholeBlocks]
    have tail : (t.drop bs).length = k * bs := by simp [wholeBlocks]
    exact List.forall_mem_cons.mpr ⟨head, ih tail⟩

theorem splitBlocks_flatten {bs k : Nat} {t : Bits} (wholeBlocks : t.length = k * bs) :
    (splitBlocks bs k t).flatten = t := by
  induction k generalizing t with
  | zero => simpa [splitBlocks, eq_comm] using wholeBlocks
  | succ k ih =>
    rw [Nat.succ_mul] at wholeBlocks
    have tail : (t.drop bs).length = k * bs := by simp [wholeBlocks]
    rw [splitBlocks, List.flatten_cons, ih tail, List.take_append_drop]

theorem padded_length {bs : Nat} (pos : 0 < bs) : (padded bs bits).length = ceilDiv bits.length bs * bs := by
  have := le_ceilDiv_mul bits.length pos
  simp only [padded, paddingBits, List.length_append, zeros_length]
  omega

theorem paddedBlocks_length (bs : Nat) : (paddedBlocks bs bits).length = ceilDiv bits.length bs :=
  splitBlocks_length _ _ _

theorem length_of_mem_paddedBlocks {bs : Nat} (pos : 0 < bs) : ∀ blk ∈ paddedBlocks bs bits, blk.length = bs :=
  length_of_mem_splitBlocks (padded_length pos)

theorem paddedBlocks_flatten {bs : Nat} (pos : 0 < bs) : (paddedBlocks bs bits).flatten = padded bs bits :=
  splitBlocks_flatten (padded_length pos)

/-! ### What the three commands do when no check refuses them -/

theorem dinBits_eq_some_iff : dinBits s = some bits ↔ s.din = .bits bits := by
  cases h : s.din <;> simp [dinBits, h]

theorem blockPlanCmd_eq_complete {m : McsCode} {row : McsRow} (legal : P.Legal) (selected : mcsRow P m = some row)
    (within : opA0 s ≤ P.maxBurstBytes) :
    blockPlanCmd P m s = complete
      (results (payloadBits row) (ceilDiv (8 * opA0 s) (payloadBits row))
        (paddingBits (ceilDiv (8 * opA0 s) (payloadBits row)) (payloadBits row) (8 * opA0 s)) (8 * opA0 s)) .none s := by
  have pos := payloadBits_pos (mcsRow_legal legal selected)
  simp only [blockPlanCmd, withMcs, selected]
  rw [if_neg within.not_gt, if_neg (le_ceilDiv_mul _ pos).not_gt]

theorem segmentCmd_eq_complete (input : s.din = .bits bits) (size : badBlockSize P (opA0 s) = false)
    (within : bits.length ≤ 8 * P.maxBurstBytes) (room : bqLevel s + ceilDiv bits.length (opA0 s) ≤ P.qdepth) :
    segmentCmd P s = complete
      (results (ceilDiv bits.length (opA0 s)) (paddingBits (ceilDiv bits.length (opA0 s)) (opA0 s) bits.length)
        (bqLevel (bqPushAll (paddedBlocks (opA0 s) bits) s)) 0) .none (bqPushAll (paddedBlocks (opA0 s) bits) s) := by
  simp only [segmentCmd, dinBits_eq_some_iff.mpr input]
  rw [if_neg (by simp [size]), if_neg within.not_gt, if_neg room.not_gt]
  rfl

theorem reassembleCmd_eq_complete (size : badBlockSize P (opA1 s) = false) (enough : opA0 s ≤ bqLevel s)
    (sizes : ∀ blk ∈ s.bq.take (opA0 s), blk.length = opA1 s) :
    reassembleCmd P s = complete (results (opA0 s * opA1 s) (bqLevel (bqDrop (opA0 s) s)) 0 0)
      (.bits (s.bq.take (opA0 s)).flatten) (bqDrop (opA0 s) s) := by
  have noMismatch : ¬ (s.bq.take (opA0 s)).any (fun blk => blk.length != opA1 s) = true := by simpa using sizes
  simp only [reassembleCmd]
  rw [if_neg (by simp [size]), if_neg enough.not_gt, if_neg noMismatch]

/-- REASSEMBLE undoes SEGMENT on a queue that holds nothing else (R110). -/
theorem reassembleCmd_paddedBlocks (queue : s.bq = paddedBlocks (opA1 s) bits)
    (count : opA0 s = ceilDiv bits.length (opA1 s)) (size : badBlockSize P (opA1 s) = false) :
    ∃ u, reassembleCmd P s = .next u ∧ u.dout = .bits (padded (opA1 s) bits) ∧ u.bq = [] := by
  have pos : 0 < opA1 s := (badBlockSize_eq_false_iff.mp size).1
  have level : opA0 s = s.bq.length := by rw [count, queue, paddedBlocks_length]
  have whole : s.bq.take (opA0 s) = paddedBlocks (opA1 s) bits := by rw [level, List.take_length, queue]
  refine ⟨_, reassembleCmd_eq_complete size level.le (whole ▸ length_of_mem_paddedBlocks pos), ?_, ?_⟩
  · simp only [whole, paddedBlocks_flatten pos]
  · simp [level]

/-! ### The agreement -/

/-- A planned block count fits the operand REASSEMBLE takes it in: a block holds more than one byte. -/
theorem ceilDiv_payloadBits_lt {row : McsRow} {maxBlockBits : Nat} (legal : row.Legal maxBlockBits) (bytes : Word) :
    ceilDiv (8 * bytes.toNat) (payloadBits row) < 2 ^ 32 := by
  have range := (payloadBits_range legal).1
  have enough : 8 * bytes.toNat ≤ bytes.toNat * payloadBits row := by nlinarith
  exact ((ceilDiv_le_iff (by omega)).mpr enough).trans_lt bytes.isLt

/-- The plan's registers hold the exact values, and the block size and count come back unchanged through the 32-bit
operands. -/
theorem blockPlanCmd_plans {m : McsCode} {row : McsRow} (legal : P.Legal) (selected : mcsRow P m = some row)
    (within : opA0 s ≤ P.maxBurstBytes) (wholeBytes : bits.length = 8 * opA0 s) :
    ∃ p, blockPlanCmd P m s = .next p ∧ p.bq = s.bq ∧
      (p.r.r0.setWidth 32).toNat = payloadBits row ∧
      (p.r.r1.setWidth 32).toNat = ceilDiv bits.length (payloadBits row) ∧
      p.r.r1.toNat = ceilDiv bits.length (payloadBits row) ∧
      p.r.r2 = toReg (paddingBits (ceilDiv bits.length (payloadBits row)) (payloadBits row) bits.length) := by
  have rowLegal := mcsRow_legal legal selected
  have sizeFits : payloadBits row < 2 ^ 32 := (payloadBits_range rowLegal).2.trans_lt (by decide)
  have countFits := ceilDiv_payloadBits_lt rowLegal s.a0
  rw [wholeBytes]
  exact ⟨_, blockPlanCmd_eq_complete legal selected within, rfl, toReg_setWidth_toNat sizeFits,
    toReg_setWidth_toNat countFits, toReg_toNat (countFits.trans (by decide)), rfl⟩

theorem segmentCmd_of_empty_queue (queue : s.bq = []) (input : s.din = .bits bits)
    (size : badBlockSize P (opA0 s) = false) (within : bits.length ≤ 8 * P.maxBurstBytes)
    (room : ceilDiv bits.length (opA0 s) ≤ P.qdepth) :
    ∃ t, segmentCmd P s = .next t ∧ t.bq = paddedBlocks (opA0 s) bits ∧
      t.r.r1 = toReg (paddingBits (ceilDiv bits.length (opA0 s)) (opA0 s) bits.length) :=
  ⟨_, segmentCmd_eq_complete input size within (by simpa [bqLevel, queue] using room), by simp [queue], rfl⟩

end

/-- Settles O46: each command completes on the state the one before it left, SEGMENT with the planned block size and
REASSEMBLE with the planned count and size as operands. -/
theorem planSegmentReassembleAgree : Obligations.PlanSegmentReassembleAgree := by
  intro P s m row bits bytes legal selected wholeBytes within empty room
  have rowLegal := mcsRow_legal legal selected
  have pos := payloadBits_pos rowLegal
  have size := badBlockSize_payloadBits rowLegal
  have planRoom : ceilDiv bits.length (payloadBits row) ≤ P.qdepth := by
    rw [ceilDiv_eq_natCeil _ pos]
    exact_mod_cast room
  have paddingFits : paddingBits (ceilDiv bits.length (payloadBits row)) (payloadBits row) bits.length < 2 ^ 64 :=
    (paddingBits_lt _ pos).trans ((payloadBits_range rowLegal).2.trans_lt (by decide))
  obtain ⟨p, plan, planQueue, sizeOperand, countOperand, count, padding⟩ :=
    blockPlanCmd_plans (s := { s with a0 := bytes }) legal selected within wholeBytes
  obtain ⟨t, segment, queue, segmentPadding⟩ := segmentCmd_of_empty_queue (P := P) (bits := bits)
    (s := { p with a0 := p.r.r0.setWidth 32, din := .bits bits }) (planQueue.trans empty) rfl
    (by rwa [opA0, sizeOperand]) (by rw [wholeBytes]; exact Nat.mul_le_mul_left 8 within) (by rwa [opA0, sizeOperand])
  rw [opA0, sizeOperand] at queue segmentPadding
  obtain ⟨u, reassemble, output, -⟩ := reassembleCmd_paddedBlocks (P := P) (bits := bits)
    (s := { t with a0 := p.r.r1.setWidth 32, a1 := p.r.r0.setWidth 32 })
    (by rw [opA1, sizeOperand, queue]) (by rw [opA0, opA1, sizeOperand, countOperand]) (by rwa [opA1, sizeOperand])
  refine ⟨p, t, u, plan, segment, ?_, segmentPadding.trans padding.symm, reassemble, ?_⟩
  · rw [queue, paddedBlocks_length, count]
  · rw [output, opA1, sizeOperand, padded, padding, toReg_toNat paddingFits]

end Sys2Proof.Machine
end

section
/-! PROOF. The scan recovers a well-formed burst from its bytes, and the round trip of 42_bit_codec.md R103: at each
packet start the scan reads that packet's own header and recovers exactly its bytes. -/

namespace Sys2Proof.Machine

section
variable {P : Params} {s : State} {hi : Nat} {p : Packet} {b : Burst}

/-! ### The bytes of a well-formed packet inside a buffer -/

theorem byteAt_append_packet (front rest : List Byte) {i : Nat} (inside : i < p.length) :
    byteAt (front ++ (p ++ rest)) (front.length + i) = byteAt p i := by
  rw [byteAt, List.getD_append_right _ _ _ _ (Nat.le_add_right _ _), Nat.add_sub_cancel_left,
    List.getD_append _ _ _ _ inside, byteAt]

theorem three_le_length_of_wellFormed (wf : WellFormedPacket hi p) : 3 ≤ p.length := by
  rcases wf with ⟨-, size⟩ | ⟨-, atLeast, -⟩
  · omega
  · exact atLeast

/-- The header at the start of a well-formed packet gives that packet's size (R14, R68). -/
theorem readHeader_of_wellFormed (wf : WellFormedPacket hi p) (front rest : List Byte) :
    readHeader hi (front ++ (p ++ rest)) front.length = .packet p.length := by
  have long := three_le_length_of_wellFormed wf
  have first : byteAt (front ++ (p ++ rest)) front.length = byteAt p 0 :=
    byteAt_append_packet front rest (i := 0) (by omega)
  rcases wf with ⟨control, size⟩ | ⟨data, -, field⟩
  · rw [readHeader, first, if_pos control, size, ctrlFrameBytes]
  · have whole : ¬ front.length + 3 > (front ++ (p ++ rest)).length := by simp only [List.length_append]; omega
    have notPadding : p.length ≠ 0 := by omega
    rw [readHeader, first, if_neg (by simp [data]), if_neg whole, byteAt_append_packet front rest (by omega),
      byteAt_append_packet front rest (by omega), ← packetLength, field]
    exact if_neg notPadding

/-! ### The scan -/

/-- One turn of the loop at the start of a well-formed packet (R97). -/
theorem scanLoop_packet (wf : WellFormedPacket hi p) (front rest : List Byte) (fuel : Nat) (pkts : Burst) :
    scanLoop hi (front ++ (p ++ rest)) (fuel + 1) front.length pkts =
      scanLoop hi (front ++ (p ++ rest)) fuel (front.length + p.length) (pkts ++ [p]) := by
  have long := three_le_length_of_wellFormed wf
  have before : front.length < (front ++ (p ++ rest)).length := by simp only [List.length_append]; omega
  have within : ¬ front.length + p.length > (front ++ (p ++ rest)).length := by simp only [List.length_append]; omega
  have bytes : ((front ++ (p ++ rest)).drop front.length).take p.length = p := by simp
  rw [scanLoop, if_pos before, readHeader_of_wellFormed wf]
  simp only [if_neg within, bytes]

/-- The loop goes through the packets of a well-formed burst, one turn each, whatever follows them. -/
theorem scanLoop_burst (wf : WellFormedBurst hi b) (front rest : List Byte) (fuel : Nat) (pkts : Burst) :
    scanLoop hi (front ++ (b.flatten ++ rest)) (fuel + b.length) front.length pkts =
      scanLoop hi (front ++ (b.flatten ++ rest)) fuel (front.length + b.flatten.length) (pkts ++ b) := by
  induction b generalizing front pkts with
  | nil => simp
  | cons p b ih =>
    obtain ⟨wfHead, wfTail⟩ := List.forall_mem_cons.mp wf
    have tail := ih wfTail (front ++ p) (pkts ++ [p])
    have turn := scanLoop_packet wfHead front (b.flatten ++ rest) (fuel + b.length) pkts
    simp only [List.append_assoc, List.length_append, List.singleton_append, Nat.add_assoc] at tail turn
    simp only [List.flatten_cons, List.append_assoc, List.length_append, List.length_cons]
    exact turn.trans tail

theorem scanLoop_at_end (buf : List Byte) (fuel : Nat) (pkts : Burst) :
    scanLoop hi buf fuel buf.length pkts = .ok pkts buf.length false := by
  cases fuel with
  | zero => rfl
  | succ fuel => rw [scanLoop, if_neg (lt_irrefl _)]

theorem burst_length_le_bytes (wf : WellFormedBurst hi b) : b.length ≤ b.flatten.length := by
  have nonempty : ∀ size ∈ b.map List.length, 1 ≤ size :=
    List.forall_mem_map.mpr fun p member => le_trans (by decide) (three_le_length_of_wellFormed (wf p member))
  simpa using List.length_le_sum_of_one_le _ nonempty

/-- The fuel of `scan`, one turn per byte, covers one turn per packet. -/
theorem scan_flatten_of_wellFormed (wf : WellFormedBurst hi b) :
    scan hi b.flatten = .ok b b.flatten.length false := by
  obtain ⟨spare, fuel⟩ := Nat.exists_eq_add_of_le' (burst_length_le_bytes wf)
  have packets := scanLoop_burst wf [] [] spare []
  simp only [List.nil_append, List.append_nil, List.length_nil, Nat.zero_add, ← fuel] at packets
  exact packets.trans (scanLoop_at_end _ _ _)

/-! ### What the two commands do when no check refuses them -/

theorem dinBurst_eq_some_iff : dinBurst s = some b ↔ s.din = .burst b := by
  cases h : s.din <;> simp [dinBurst, h]

theorem serializeCmd_eq_complete (input : s.din = .burst b) (within : burstBytes b ≤ P.maxBurstBytes) :
    serializeCmd P s =
      complete (results (8 * burstBytes b) b.length (burstBytes b) 0) (.bits (bitsOf b.flatten)) s := by
  simp only [serializeCmd, dinBurst_eq_some_iff.mpr input]
  exact if_neg within.not_gt

theorem deserializeCmd_bitsOf_eq_complete {buf : List Byte} {pkts : Burst} {pos : Nat} {terminated : Bool}
    (input : s.din = .bits (bitsOf buf)) (within : buf.length ≤ P.maxBurstBytes)
    (scanned : scan P.lenHiBits buf = .ok pkts pos terminated) :
    deserializeCmd P s = complete (results pkts.length pos terminated.toNat (buf.length - pos)) (.burst pkts) s := by
  simp only [deserializeCmd, dinBits_eq_some_iff.mpr input, bitsOf_length, bytesOf_bitsOf, scanned]
  rw [if_neg (by simp), if_neg (by omega)]

end

/-- Settles O37: DESERIALIZE is given the burst's own bytes, and its scan recovers the burst and stops at their end, so
nothing is padding and nothing is discarded. -/
theorem roundTripRecoversTheBurst : Obligations.RoundTripRecoversTheBurst := by
  intro P s b wf _ within fits
  have total : b.flatten.length = (b.map List.length).sum := List.length_flatten
  have count := burst_length_le_bytes wf
  rw [total] at count
  refine ⟨_, _, serializeCmd_eq_complete rfl within,
    deserializeCmd_bitsOf_eq_complete rfl (total.trans_le within) (scan_flatten_of_wellFormed wf), rfl,
    toReg_toNat (count.trans_lt fits), ?_, toReg_zero, ?_, rfl⟩
  · exact (congrArg (fun n => (toReg n).toNat) total).trans (toReg_toNat fits)
  · simp

end Sys2Proof.Machine
end

section
/-! PROOF. The order of the block queue across all commands, and the segment and reassemble law (43_segmenter.md R110,
R114). -/

namespace Sys2Proof.Machine

section
variable {P : Params} {s t : State} {i : Instr}

/-! ### What each command does to the queue -/

/-- A failed command leaves the queue as it was, so what holds of both the old queue and each completed one holds after
the command. -/
theorem Ends.bq_of_completed {did : State → Prop} {Q : List Block → Prop} (ends : Ends did s t) (failed : Q s.bq)
    (completed : ∀ s', did s' → Q s'.bq) : Q t.bq := by
  cases ends with
  | fatal _ h => exact h ▸ failed
  | cerr _ h => exact h ▸ failed
  | done s' hs _ _ h => exact h ▸ completed s' hs

theorem Ends.bq_eq (ends : Ends (· = s) s t) : t.bq = s.bq :=
  ends.bq_of_completed (Q := (· = s.bq)) rfl fun _ same => same ▸ rfl

theorem changesQueue_eq_true_iff :
    changesQueue i = true ↔ (i = .segment ∨ i = .bqPush) ∨ i = .reassemble ∨ i = .bqClear := by
  cases i <;> simp [changesQueue]

/-- Outside the segmenter a completion leaves the queue alone (20_memory.md R44). -/
theorem execWith_keeps_bq (h : execWith P i s = .next t) (other : changesQueue i = false) : t.bq = s.bq := by
  cases i with
  | cfgWr reg => exact (execCfgWr_ends h).bq_of_completed (Q := (· = s.bq)) rfl fun _ wrote => wrote ▸ rfl
  | cfgRd reg => exact (cfgRdCmd_ends h).bq_eq
  | mcsInfo m => exact (mcsInfoCmd_ends h).bq_eq
  | blockPlan m => exact (blockPlanCmd_ends h).bq_eq
  | serialize => exact (serializeCmd_ends h).bq_eq
  | deserialize => exact (deserializeCmd_ends h).bq_eq
  | segment => cases other
  | reassemble => cases other
  | bqPush => cases other
  | bqClear => cases other
  | timingInit =>
    refine (timingInitCmd_ends h).bq_of_completed (Q := (· = s.bq)) rfl ?_
    rintro _ ⟨-, -, -, rfl⟩
    rfl
  | dataRate m => exact (dataRateCmd_ends h).bq_eq
  | blockTime m => exact (blockTimeCmd_ends h).bq_eq
  | burstTime m => exact (burstTimeCmd_ends h).bq_eq
  | nrSymbols m => exact (nrSymbolsCmd_ends h).bq_eq
  | nrBytes m => exact (nrBytesCmd_ends h).bq_eq

/-- The two commands that push do so behind the old queue (R105, R111). -/
theorem execWith_pushes_at_tail (h : execWith P i s = .next t) (pushes : i = .segment ∨ i = .bqPush) :
    ∃ new, t.bq = s.bq ++ new := by
  have failed : ∃ new, s.bq = s.bq ++ new := ⟨[], (List.append_nil _).symm⟩
  rcases pushes with rfl | rfl
  · refine (segmentCmd_ends h).bq_of_completed (Q := fun q => ∃ new, q = s.bq ++ new) failed ?_
    rintro _ ⟨bits, -, -, -, rfl⟩
    exact ⟨_, bqPushAll_bq _ _⟩
  · refine (bqPushCmd_ends h).bq_of_completed (Q := fun q => ∃ new, q = s.bq ++ new) failed ?_
    rintro _ ⟨blk, -, -, -, rfl⟩
    exact ⟨_, bqPushAll_bq _ _⟩

/-- REASSEMBLE pops all the blocks it was asked for, and emits them in queue order, or none (R108, R109). -/
theorem reassembleCmd_pops_from_head (h : reassembleCmd P s = .next t) :
    t.bq = s.bq ∨ t.bq = s.bq.drop (opA0 s) ∧ t.dout = .bits (s.bq.take (opA0 s)).flatten := by
  have failed {e : CmdError} (raised : raiseCErr e s = .next t) : t.bq = s.bq :=
    raiseCErr_eq_next_iff.mp raised ▸ rfl
  unfold reassembleCmd at h
  simp only at h
  split at h
  · exact .inl (failed h)
  · split at h
    · exact .inl (failed h)
    · split at h
      · exact .inl (failed h)
      · obtain rfl := complete_eq_next_iff.mp h
        exact .inr ⟨rfl, rfl⟩

theorem execBqClear_bq (h : execBqClear s = .next t) : t.bq = [] :=
  complete_eq_next_iff.mp h ▸ rfl

end

/-- Settles O23: a command that keeps the queue pops and pushes nothing, the pushing ones append, REASSEMBLE pops
blocks at the head and emits them, and BQ_CLEAR pops the whole queue. -/
theorem queueIsFifo : Obligations.QueueIsFifo := by
  intro i s t ran
  rw [← execWith_params] at ran
  have unchanged (same : t.bq = s.bq) : t.bq = s.bq.drop 0 ++ [] := by simpa using same
  cases touches : changesQueue i
  case false =>
    exact ⟨0, [], unchanged (execWith_keeps_bq ran touches), fun _ => ⟨rfl, rfl⟩, fun _ => rfl, fun _ => rfl,
      fun _ pops => absurd pops (lt_irrefl 0)⟩
  case true =>
    rcases changesQueue_eq_true_iff.mp touches with pushes | rfl | rfl
    · obtain ⟨new, grown⟩ := execWith_pushes_at_tail ran pushes
      refine ⟨0, new, grown, nofun, fun _ => rfl, ?_, fun _ pops => absurd pops (lt_irrefl 0)⟩
      rcases pushes with rfl | rfl <;> nofun
    · rcases reassembleCmd_pops_from_head ran with same | ⟨popped, emitted⟩
      · exact ⟨0, [], unchanged same, nofun, fun _ => rfl, fun _ => rfl, fun _ pops => absurd pops (lt_irrefl 0)⟩
      · exact ⟨opA0 s, [], by simpa using popped, nofun, nofun, fun _ => rfl, fun _ _ => ⟨rfl, emitted⟩⟩
    · exact ⟨s.bq.length, [], by simp [execBqClear_bq ran], nofun, nofun, fun _ => rfl, nofun⟩

/-- Settles O45: SEGMENT leaves exactly the padded blocks in the queue, and REASSEMBLE, asked for their number, joins
them and empties it. -/
theorem segmentReassembleLaw : Obligations.SegmentReassembleLaw := by
  intro P s bits bs k empty within pos fits count room
  have size : badBlockSize P bs.toNat = false := badBlockSize_eq_false_iff.mpr ⟨pos, fits⟩
  rw [← ceilDiv_eq_natCeil _ pos] at count
  obtain ⟨t, segment, queue, -⟩ := segmentCmd_of_empty_queue (P := P) (bits := bits)
    (s := { s with din := .bits bits, a0 := bs }) empty rfl size within (count ▸ room)
  obtain ⟨u, reassemble, output, emptied⟩ := reassembleCmd_paddedBlocks (P := P) (bits := bits)
    (s := { t with a0 := k, a1 := bs }) queue count size
  refine ⟨t, u, segment, reassemble, ?_, emptied, List.take_left⟩
  rw [output, opA1, padded, paddingBits, count]

end Sys2Proof.Machine
end

section
/-! PROOF. Exact rates and the laws between the timing quantities (44_timing.md R123, R124, R140 to R142), for any legal
parameters. -/

namespace Sys2Proof.Machine

section
variable {P : Params} {c : Cfg} {row : McsRow} {maxBlockBits : Nat}

/-! ### Bits per symbol -/

theorem floorNat_eq_natFloor (q : Rat) : floorNat q = ⌊q⌋₊ :=
  Int.floor_toNat q

theorem half_le_codeRate (legal : row.Legal maxBlockBits) : 1 / 2 ≤ codeRate row := by
  have denPos : (0 : Rat) < row.rateDen := Nat.cast_pos.mpr legal.den_pos
  have lower : (row.rateDen : Rat) ≤ 2 * row.rateNum := mod_cast legal.rate_lower
  rw [codeRate, le_div_iff₀ denPos]
  linarith

/-- The slowest row a legal table can hold has one bit per carrier and the rate 1/2. -/
theorem carriers_div_two_le_bitsPerSymbol (legal : row.Legal maxBlockBits) : carriers / 2 ≤ bitsPerSymbol row := by
  have bps : (1 : Rat) ≤ row.bps := mod_cast legal.bps_range.1
  have carried : (96 : Rat) ≤ row.bps * 192 * codeRate row := by
    nlinarith [half_le_codeRate legal]
  rw [bitsPerSymbol, floorNat_eq_natFloor]
  exact Nat.le_floor (mod_cast carried)

theorem bitsPerSymbol_pos (legal : row.Legal maxBlockBits) : 0 < bitsPerSymbol row :=
  lt_of_lt_of_le (by decide) (carriers_div_two_le_bitsPerSymbol legal)

/-! ### Rates and times in symbols -/

theorem dataRate_mul_ts (duration : 0 < ts P c) : dataRate P c row * ts P c = bitsPerSymbol row :=
  div_mul_cancel₀ _ duration.ne'

/-- A block takes `codedBits / BPS` symbols. -/
theorem blockTime_eq (P : Params) (c : Cfg) (row : McsRow) :
    blockTime P c row = (codedBits row : Rat) / bitsPerSymbol row * ts P c := by
  rw [blockTime, dataRate, div_div_eq_mul_div, div_mul_eq_mul_div]

theorem nrSymbols_eq_natCeil (legal : row.Legal maxBlockBits) (bytes : Nat) :
    nrSymbols row bytes = ⌈(nrBlocks row bytes : Rat) * codedBits row / bitsPerSymbol row⌉₊ := by
  rw [nrSymbols, ceilDiv_eq_natCeil _ (bitsPerSymbol_pos legal), Nat.cast_mul]

theorem nrBytes_eq_natFloor (row : McsRow) (symbols : Nat) :
    nrBytes row symbols = ⌊(symbols : Rat) * bitsPerSymbol row / 8⌋₊ := by
  rw [nrBytes, ← Nat.cast_mul, Nat.floor_div_ofNat, Nat.floor_natCast]

/-! ### What blocks and symbols hold -/

/-- The blocks of a burst hold its bits. -/
theorem bits_le_nrBlocks_mul (legal : row.Legal maxBlockBits) (bytes : Nat) :
    8 * bytes ≤ nrBlocks row bytes * payloadBits row :=
  le_ceilDiv_mul _ (payloadBits_pos legal)

/-- The symbols of a burst hold the coded bits of its blocks. -/
theorem codedBits_le_nrSymbols_mul (legal : row.Legal maxBlockBits) (bytes : Nat) :
    nrBlocks row bytes * codedBits row ≤ nrSymbols row bytes * bitsPerSymbol row :=
  le_ceilDiv_mul _ (bitsPerSymbol_pos legal)

theorem payloadBits_le_codedBits (legal : row.Legal maxBlockBits) : payloadBits row ≤ codedBits row :=
  Nat.mul_le_mul_left 8 legal.payload_le_coded

end

/-- Settles O55: `DataRate × Ts` is `BPS`, which turns each rational form into the integer one. -/
theorem ratesAreExact : Obligations.RatesAreExact := by
  intro P m row c legal selected duration
  have perSymbol : dataRate P c row * ts P c = bitsPerSymbol row := dataRate_mul_ts duration
  refine ⟨perSymbol, fun bytes => ?_, fun n => ?_, blockTime_eq P c row⟩
  · rw [div_div, perSymbol, nrSymbols_eq_natCeil (mcsRow_legal legal selected)]
  · rw [mul_assoc, mul_comm (ts P c), perSymbol, nrBytes_eq_natFloor]

/-- Settles O56: the symbols hold the coded bits of the blocks, no fewer than their payload bits, and those hold the
burst. -/
theorem symbolsCarryTheBytes : Obligations.SymbolsCarryTheBytes := by
  intro P m row legal selected bytes
  have rowLegal := mcsRow_legal legal selected
  have carried : 8 * bytes ≤ nrSymbols row bytes * bitsPerSymbol row :=
    calc 8 * bytes
      _ ≤ nrBlocks row bytes * payloadBits row := bits_le_nrBlocks_mul rowLegal bytes
      _ ≤ nrBlocks row bytes * codedBits row := Nat.mul_le_mul_left _ (payloadBits_le_codedBits rowLegal)
      _ ≤ nrSymbols row bytes * bitsPerSymbol row := codedBits_le_nrSymbols_mul rowLegal bytes
  rw [nrBytes, ge_iff_le, Nat.le_div_iff_mul_le (by decide), mul_comm]
  exact carried

/-- Settles O57: counted in symbols, the blocks take their coded bits over `BPS`, and the burst's symbols hold those
bits. -/
theorem burstCoversItsBlocks : Obligations.BurstCoversItsBlocks := by
  intro P m row c legal selected duration bytes
  have rowLegal := mcsRow_legal legal selected
  have bpsPos : (0 : Rat) < bitsPerSymbol row := Nat.cast_pos.mpr (bitsPerSymbol_pos rowLegal)
  have inSymbols : (nrBlocks row bytes : Rat) * (codedBits row / bitsPerSymbol row) ≤ nrSymbols row bytes := by
    rw [← mul_div_assoc, div_le_iff₀ bpsPos]
    exact_mod_cast codedBits_le_nrSymbols_mul rowLegal bytes
  rw [blockTime_eq, ← mul_assoc]
  exact mul_le_mul_of_nonneg_right inSymbols duration.le

end Sys2Proof.Machine
end

section
/-! PROOF. The scan loop by its equations (42_bit_codec.md R97): they are generated here once, before any proof below
rewrites with them. -/

namespace Sys2Proof.Machine

example (hi : Nat) (buf : List Byte) (pos : Nat) (pkts : Burst) :
    scanLoop hi buf 0 pos pkts = .ok pkts pos false := by
  rw [scanLoop]

end Sys2Proof.Machine
end

section
/-! PROOF. The size of the closed forms of a usable configuration (10_state.md R76, 44_timing.md R119 to R122): each is
an element of an interval, so every derived register fits. -/

namespace Sys2Proof.Machine

section
variable {c : Cfg}

/-! ### The closed forms with their intervals -/

/-- The sampling factor of R119, R120. -/
def factorIn (bw : Nat) : Set.Icc (1 : Rat) 2 :=
  ⟨factorOf bw, by unfold factorOf; split_ifs <;> norm_num⟩

/-- The least key is 1.25 MHz, and no bandwidth below its key is a multiple of it. -/
theorem le_bw_of_usable (usable : UsableConfig c) : 1250000 ≤ c.bw.toNat := by
  obtain ⟨k, listed, multiple⟩ := usable.key
  have large : ∀ k ∈ [1750000, 1500000, 1250000, 2750000, 2000000], 1250000 ≤ k := by decide
  exact (large k listed).trans (Nat.le_of_dvd usable.bw_pos (Nat.dvd_of_mod_eq_zero multiple))

/-- The sampling frequency of R121, in Hz. -/
def samplingHzIn (usable : UsableConfig c) : Set.Icc (1250000 : Rat) (2 ^ 33) :=
  ⟨samplingHz c, by
    obtain ⟨lower, upper⟩ : factorOf c.bw.toNat ∈ Set.Icc (1 : Rat) 2 := (factorIn c.bw.toNat).2
    have bwLower : (1250000 : Rat) ≤ c.bw.toNat := mod_cast le_bw_of_usable usable
    have bwUpper : (c.bw.toNat : Rat) ≤ 2 ^ 32 := mod_cast c.bw.isLt.le
    rw [samplingHz]
    constructor <;> nlinarith⟩

theorem samplingHz_pos (usable : UsableConfig c) : 0 < samplingHz c :=
  lt_of_lt_of_le (by decide) (samplingHzIn usable).2.1

theorem fft_bounds (usable : UsableConfig c) : (256 : Rat) ≤ c.fft.toNat ∧ (c.fft.toNat : Rat) ≤ 1024 :=
  ⟨mod_cast usable.fft_range.1, mod_cast usable.fft_range.2⟩

/-- The guard ratio `G` of R19. -/
def guardRatioIn (usable : UsableConfig c) : Set.Icc (0 : Rat) 1 :=
  ⟨(c.gnum.toNat : Rat) / c.gden.toNat, by positivity, div_le_one_of_le₀ (mod_cast usable.g_le_one) (by positivity)⟩

/-- `1 + G`. -/
def onePlusGIn (usable : UsableConfig c) : Set.Icc (1 : Rat) 2 :=
  ⟨onePlusG c, by
    obtain ⟨lower, upper⟩ : (c.gnum.toNat : Rat) / c.gden.toNat ∈ Set.Icc (0 : Rat) 1 := (guardRatioIn usable).2
    rw [onePlusG]
    constructor <;> linarith⟩

/-- The useful symbol time of R121, in seconds. -/
def usefulSecondsIn (usable : UsableConfig c) : Set.Icc (1 / 2 ^ 25 : Rat) (1 / 1024) :=
  ⟨c.fft.toNat / samplingHz c, by
    have hz := samplingHz_pos usable
    obtain ⟨hzLower, hzUpper⟩ : samplingHz c ∈ Set.Icc (1250000 : Rat) (2 ^ 33) := (samplingHzIn usable).2
    obtain ⟨fftLower, fftUpper⟩ := fft_bounds usable
    rw [Set.mem_Icc, le_div_iff₀ hz, div_le_iff₀ hz]
    constructor <;> linarith⟩

theorem symbolSeconds_eq (c : Cfg) : symbolSeconds c = onePlusG c * (c.fft.toNat / samplingHz c) :=
  mul_div_assoc _ _ _

/-- The symbol duration of R121, in seconds. -/
def symbolSecondsIn (usable : UsableConfig c) : Set.Icc (1 / 2 ^ 25 : Rat) (1 / 512) :=
  ⟨symbolSeconds c, by
    obtain ⟨guardLower, guardUpper⟩ : onePlusG c ∈ Set.Icc (1 : Rat) 2 := (onePlusGIn usable).2
    obtain ⟨lower, upper⟩ : (c.fft.toNat : Rat) / samplingHz c ∈ Set.Icc (1 / 2 ^ 25 : Rat) (1 / 1024) :=
      (usefulSecondsIn usable).2
    rw [symbolSeconds_eq]
    constructor <;> nlinarith⟩

theorem symbolSeconds_bounds (usable : UsableConfig c) :
    1 / 2 ^ 25 ≤ symbolSeconds c ∧ symbolSeconds c ≤ 1 / 512 :=
  (symbolSecondsIn usable).2

theorem symbolSeconds_pos (usable : UsableConfig c) : 0 < symbolSeconds c :=
  lt_of_lt_of_le (by positivity) (symbolSeconds_bounds usable).1

/-- The frame duration of an assigned code, in seconds (R122). -/
def frameSecondsIn {code : Nat} (defined : code ≤ 6) : Set.Icc (0 : Rat) 1 :=
  ⟨frameSeconds code, by interval_cases code <;> norm_num [frameSeconds]⟩

theorem natFloor_lt {q : Rat} (small : q ≤ 2 ^ 63) : ⌊q⌋₊ < 2 ^ 64 :=
  (Nat.floor_lt' (by decide)).mpr (lt_of_le_of_lt small (by norm_num))

theorem nanos_lt {t : Rat} (short : t ≤ 2 ^ 33) : nanos t < 2 ^ 63 :=
  (Nat.floor_lt' (by decide)).mpr (by push_cast; linarith)

/-! ### The derived registers (R76) -/

/-- The table of R76 in closed forms. -/
def closedDerived (c : Cfg) : Derived where
  sfNum := (factorOf c.bw.toNat).num.toNat
  sfDen := (factorOf c.bw.toNat).den
  fsHz := ⌊samplingHz c⌋₊
  spacingHz := ⌊samplingHz c / c.fft.toNat⌋₊
  tbTicks := nanos (c.fft.toNat / samplingHz c)
  tgTicks := nanos ((c.gnum.toNat : Rat) / c.gden.toNat * (c.fft.toNat / samplingHz c))
  tsTicks := nanos (symbolSeconds c)
  psTicks := nanos (4 / samplingHz c)
  psPerSym := ⌊onePlusG c * c.fft.toNat / 4⌋₊
  frameTicks := nanos (frameSeconds c.frameCode.toNat)
  symPerFrame := ⌊frameSeconds c.frameCode.toNat / symbolSeconds c⌋₊

theorem derivedFits_iff {d : Derived} : derivedFits d = true ↔ ∀ v ∈ [d.sfNum, d.sfDen, d.fsHz, d.spacingHz, d.tbTicks,
    d.tgTicks, d.tsTicks, d.psTicks, d.psPerSym, d.frameTicks, d.symPerFrame], v < 2 ^ 64 := by
  simp only [derivedFits, List.all_eq_true, decide_eq_true_eq]

/-- The table with the proof that TIMING_INIT's check of its widths passes. -/
def fittedDerived (usable : UsableConfig c) : { d : Derived // derivedFits d = true } :=
  ⟨closedDerived c, by
    have factor : (factorOf c.bw.toNat).num.toNat < 2 ^ 64 ∧ (factorOf c.bw.toNat).den < 2 ^ 64 := by
      unfold factorOf
      split_ifs <;> norm_num
    obtain ⟨hzLower, hzUpper⟩ : samplingHz c ∈ Set.Icc (1250000 : Rat) (2 ^ 33) := (samplingHzIn usable).2
    obtain ⟨fftLower, fftUpper⟩ := fft_bounds usable
    obtain ⟨ratioLower, ratioUpper⟩ : (c.gnum.toNat : Rat) / c.gden.toNat ∈ Set.Icc (0 : Rat) 1 :=
      (guardRatioIn usable).2
    obtain ⟨guardLower, guardUpper⟩ : onePlusG c ∈ Set.Icc (1 : Rat) 2 := (onePlusGIn usable).2
    obtain ⟨tbLower, tbUpper⟩ : (c.fft.toNat : Rat) / samplingHz c ∈ Set.Icc (1 / 2 ^ 25 : Rat) (1 / 1024) :=
      (usefulSecondsIn usable).2
    obtain ⟨tsLower, tsUpper⟩ := symbolSeconds_bounds usable
    have frame : frameSeconds c.frameCode.toNat ≤ 1 := (frameSecondsIn usable.code).2.2
    have ticks {t : Rat} (short : t ≤ 1) : nanos t < 2 ^ 64 := (nanos_lt (by linarith)).trans (by decide)
    have spacing : samplingHz c / c.fft.toNat ≤ 2 ^ 63 := by
      rw [div_le_iff₀ (by linarith)]
      linarith
    have guard : (c.gnum.toNat : Rat) / c.gden.toNat * (c.fft.toNat / samplingHz c) ≤ 1 := by nlinarith
    have slot : 4 / samplingHz c ≤ 1 := by
      rw [div_le_iff₀ (samplingHz_pos usable)]
      linarith
    have slots : onePlusG c * c.fft.toNat / 4 ≤ 2 ^ 63 := by nlinarith
    have symbols : frameSeconds c.frameCode.toNat / symbolSeconds c ≤ 2 ^ 63 := by
      rw [div_le_iff₀ (symbolSeconds_pos usable)]
      linarith
    rw [derivedFits_iff]
    simp only [List.forall_mem_cons, List.not_mem_nil, false_implies, implies_true, and_true]
    exact ⟨factor.1, factor.2, natFloor_lt (by linarith), natFloor_lt spacing, ticks (by linarith), ticks guard,
      ticks (by linarith), ticks slot, natFloor_lt slots, ticks frame, natFloor_lt symbols⟩⟩

theorem closedDerived_fits (usable : UsableConfig c) : derivedFits (closedDerived c) = true :=
  (fittedDerived usable).2

end

end Sys2Proof.Machine
end

section
/-! PROOF. Decoding and encoding are inverse (30_encoding.md R53 to R63), and what follows for the opcode map (R55,
R56) and the assembler (R70): the tables are inverse both ways, a word is its five fields, and each field class decodes
what it encodes. -/

namespace Sys2Proof

section
variable {mn : Mnemonic} {reg : Reg} {mcs : McsCode} {w : Word} {i : Instr}

/-! ### The tables in both directions -/

theorem mnemonicOfOpc_opcOf (mn : Mnemonic) : mnemonicOfOpc (opcOf mn) = some mn := by
  cases mn <;> rfl

theorem opcOf_of_mnemonicOfOpc {opc : Byte} (assigned : mnemonicOfOpc opc = some mn) : opcOf mn = opc := by
  unfold mnemonicOfOpc at assigned
  split at assigned <;> cases assigned <;> rfl

theorem regOfIndex_regIndex (reg : Reg) : regOfIndex (regIndex reg) = some reg := by
  cases reg <;> rfl

theorem regIndex_of_regOfIndex {k : Byte} (assigned : regOfIndex k = some reg) : regIndex reg = k := by
  unfold regOfIndex at assigned
  split at assigned <;> cases assigned <;> rfl

theorem mcsOfBits_mcsBits (mcs : McsCode) : mcsOfBits (mcsBits mcs) = mcs := by
  cases mcs <;> rfl

theorem mcsBits_mcsOfBits : ∀ m : BitVec 3, mcsBits (mcsOfBits m) = m := by decide

@[simp] theorem mnemonicOf_instrOf (mn : Mnemonic) (mcs : McsCode) (reg : Reg) :
    mnemonicOf (instrOf mn mcs reg) = mn := by
  cases mn <;> rfl

/-- The access column of 10_state.md R20 in terms of the index. -/
theorem isWritable_iff_regIndex_le : reg.isWritable = true ↔ (regIndex reg).toNat ≤ 0x04 := by
  cases reg <;> decide

theorem regIndex_assigned (reg : Reg) :
    (regIndex reg).toNat ≤ 0x04 ∨ (regIndex reg).toNat = 0x10 ∨ (regIndex reg).toNat = 0x11 ∨
      (0x20 ≤ (regIndex reg).toNat ∧ (regIndex reg).toNat ≤ 0x2A) := by
  cases reg <;> decide

/-- No index of the listed ranges is unassigned (10_state.md R20). -/
theorem exists_regIndex_eq {k : Byte}
    (listed : k.toNat ≤ 0x04 ∨ k.toNat = 0x10 ∨ k.toNat = 0x11 ∨ (0x20 ≤ k.toNat ∧ k.toNat ≤ 0x2A)) :
    ∃ reg, regIndex reg = k := by
  have low : ∀ n < 0x05, (regOfIndex (BitVec.ofNat 8 n)).isSome = true := by decide
  have high : ∀ n < 0x0B, (regOfIndex (BitVec.ofNat 8 (0x20 + n))).isSome = true := by decide
  have assigned : (regOfIndex (BitVec.ofNat 8 k.toNat)).isSome = true := by
    rcases listed with le | status | level | ⟨ge, le⟩
    · exact low _ (Nat.lt_succ_of_le le)
    · exact status ▸ rfl
    · exact level ▸ rfl
    · exact Nat.add_sub_cancel' ge ▸ high (k.toNat - 0x20) (by omega)
  rw [BitVec.ofNat_toNat, BitVec.setWidth_eq] at assigned
  obtain ⟨reg, index⟩ := Option.isSome_iff_exists.mp assigned
  exact ⟨reg, regIndex_of_regOfIndex index⟩

/-! ### The fields of a word -/

theorem append_toNat {n k : Nat} (x : BitVec n) (y : BitVec k) : (x ++ y).toNat = x.toNat * 2 ^ k + y.toNat := by
  rw [BitVec.toNat_append, ← Nat.shiftLeft_add_eq_or_of_lt y.isLt, Nat.shiftLeft_eq]

theorem regField_toNat (w : Word) : (regField w).toNat = w.toNat % 256 := by
  rw [regField, BitVec.extractLsb'_toNat, Nat.shiftRight_zero]

section
open BitVec

/-- With the reserved bits 0 a word is its three other fields. -/
theorem eq_formatC_of_reserved (reserved0 : rsv0Field w = 0) (reserved1 : rsv1Field w = 0) :
    w = formatC (opcField w) (mcsField w) (regField w) := by
  have fields : w = opcField w ++ rsv0Field w ++ mcsField w ++ rsv1Field w ++ regField w := by
    rw [opcField, rsv0Field, extractLsb'_append_extractLsb'_eq_extractLsb' (show 24 = 19 + 5 from rfl), mcsField,
      extractLsb'_append_extractLsb'_eq_extractLsb' (show 19 = 16 + 3 from rfl), rsv1Field,
      extractLsb'_append_extractLsb'_eq_extractLsb' (show 16 = 8 + 8 from rfl), regField,
      extractLsb'_append_extractLsb'_eq_extractLsb' (show 8 = 0 + 8 from rfl)]
    exact extractLsb'_eq_self.symm
  rw [reserved0, reserved1] at fields
  exact fields

variable (opc : Byte) (m : BitVec 3) (r : Byte)

@[simp] theorem opcField_formatC : opcField (formatC opc m r) = opc := by
  rw [opcField, formatC, extractLsb'_append_eq_of_le (by decide), extractLsb'_append_eq_of_le (by decide),
    extractLsb'_append_eq_of_le (by decide)]
  exact extractLsb'_append_eq_left

@[simp] theorem rsv0Field_formatC : rsv0Field (formatC opc m r) = 0 := by
  rw [rsv0Field, formatC, extractLsb'_append_eq_of_le (by decide), extractLsb'_append_eq_of_le (by decide),
    extractLsb'_append_eq_of_le (by decide)]
  exact extractLsb'_append_eq_right

@[simp] theorem mcsField_formatC : mcsField (formatC opc m r) = m := by
  rw [mcsField, formatC, extractLsb'_append_eq_of_le (by decide), extractLsb'_append_eq_of_le (by decide)]
  exact extractLsb'_append_eq_right

@[simp] theorem rsv1Field_formatC : rsv1Field (formatC opc m r) = 0 := by
  rw [rsv1Field, formatC, extractLsb'_append_eq_of_le (by decide)]
  exact extractLsb'_append_eq_right

@[simp] theorem regField_formatC : regField (formatC opc m r) = r :=
  extractLsb'_append_eq_right

end

/-! ### Class by class -/

/-- The one check of a term (R61 (e)), for a term made from its two fields. -/
theorem instrOf_wellFormed_iff : (instrOf mn mcs reg).WellFormed ↔ (mn = .cfgWr → reg.isWritable = true) := by
  cases mn with
  | cfgWr => exact ⟨fun writable _ => writable, fun writable => writable rfl⟩
  | _ => exact ⟨fun _ => nofun, fun _ => rfl⟩

theorem encode_instrOf_of_m (cls : fieldClass mn = .m) :
    encode (instrOf mn mcs reg) = formatC (opcOf mn) (mcsBits mcs) 0 := by
  cases mn <;> cases cls <;> rfl

theorem encode_instrOf_of_r (cls : fieldClass mn = .r) :
    encode (instrOf mn mcs reg) = formatC (opcOf mn) 0 (regIndex reg) := by
  cases mn <;> cases cls <;> rfl

theorem encode_instrOf_of_n (cls : fieldClass mn = .n) : encode (instrOf mn mcs reg) = formatC (opcOf mn) 0 0 := by
  cases mn <;> cases cls <;> rfl

/-- Each class decodes the one field it uses (R55, R63). -/
theorem decode_formatC (mn : Mnemonic) :
    (fieldClass mn = .m → ∀ mcs, decode (formatC (opcOf mn) (mcsBits mcs) 0) = .ok (instrOf mn mcs .bw)) ∧
    (fieldClass mn = .r → ∀ reg, (mn = .cfgWr → reg.isWritable = true) →
      decode (formatC (opcOf mn) 0 (regIndex reg)) = .ok (instrOf mn .bpsk_1_2 reg)) ∧
    (fieldClass mn = .n → decode (formatC (opcOf mn) 0 0) = .ok (instrOf mn .bpsk_1_2 .bw)) := by
  refine ⟨fun cls mcs => ?_, fun cls reg writable => ?_, fun cls => ?_⟩
  · simp [decode, mnemonicOfOpc_opcOf, cls, mcsOfBits_mcsBits]
  · simpa [decode, mnemonicOfOpc_opcOf, cls, regOfIndex_regIndex] using writable
  · simp [decode, mnemonicOfOpc_opcOf, cls]

theorem decode_formatC_of_m (cls : fieldClass mn = .m) (mcs : McsCode) :
    decode (formatC (opcOf mn) (mcsBits mcs) 0) = .ok (instrOf mn mcs .bw) :=
  (decode_formatC mn).1 cls mcs

theorem decode_formatC_of_r (cls : fieldClass mn = .r) (writable : mn = .cfgWr → reg.isWritable = true) :
    decode (formatC (opcOf mn) 0 (regIndex reg)) = .ok (instrOf mn .bpsk_1_2 reg) :=
  (decode_formatC mn).2.1 cls reg writable

theorem decode_formatC_of_n (cls : fieldClass mn = .n) :
    decode (formatC (opcOf mn) 0 0) = .ok (instrOf mn .bpsk_1_2 .bw) :=
  (decode_formatC mn).2.2 cls

/-- Everything a legal word can be (R61 to R63). -/
theorem decode_cases (legal : decode w = .ok i) :
    ∃ mn, w = formatC (opcOf mn) (mcsField w) (regField w) ∧
      ((fieldClass mn = .m ∧ regField w = 0 ∧ i = instrOf mn (mcsOfBits (mcsField w)) .bw) ∨
        (fieldClass mn = .r ∧ mcsField w = 0 ∧ ∃ reg, regIndex reg = regField w ∧
          (mn = .cfgWr → reg.isWritable = true) ∧ i = instrOf mn .bpsk_1_2 reg) ∨
        (fieldClass mn = .n ∧ mcsField w = 0 ∧ regField w = 0 ∧ i = instrOf mn .bpsk_1_2 .bw)) := by
  unfold decode at legal
  split at legal
  · cases legal
  · rename_i mn assigned
    split at legal
    · cases legal
    · rename_i reserved
      obtain ⟨reserved0, reserved1⟩ : rsv0Field w = 0 ∧ rsv1Field w = 0 := by simpa using reserved
      refine ⟨mn, opcOf_of_mnemonicOfOpc assigned ▸ eq_formatC_of_reserved reserved0 reserved1, ?_⟩
      cases cls : fieldClass mn <;> simp only [cls] at legal
      case m =>
        split at legal
        · cases legal
        · exact .inl ⟨rfl, by simp_all, (Except.ok.inj legal).symm⟩
      case r =>
        split at legal
        · cases legal
        · split at legal
          · cases legal
          · split at legal
            · cases legal
            · rename_i index writable
              exact .inr (.inl ⟨rfl, by simp_all, _, regIndex_of_regOfIndex index, by simpa using writable,
                (Except.ok.inj legal).symm⟩)
      case n =>
        split at legal
        · cases legal
        · rename_i unused
          obtain ⟨mcs, reg⟩ : mcsField w = 0 ∧ regField w = 0 := by simpa using unused
          exact .inr (.inr ⟨rfl, mcs, reg, (Except.ok.inj legal).symm⟩)

/-! ### The inverse law -/

theorem wellFormed_and_encode_of_decode (legal : decode w = .ok i) : i.WellFormed ∧ encode i = w := by
  obtain ⟨mn, fields, ⟨cls, reg, rfl⟩ | ⟨cls, mcs, k, index, writable, rfl⟩ | ⟨cls, mcs, reg, rfl⟩⟩ :=
    decode_cases legal
  · exact ⟨instrOf_wellFormed_iff.mpr fun _ => rfl,
      by rw [encode_instrOf_of_m cls, mcsBits_mcsOfBits, ← reg]; exact fields.symm⟩
  · exact ⟨instrOf_wellFormed_iff.mpr writable, by rw [encode_instrOf_of_r cls, index, ← mcs]; exact fields.symm⟩
  · exact ⟨instrOf_wellFormed_iff.mpr fun _ => rfl,
      by rw [encode_instrOf_of_n cls, fields, mcs, reg]⟩

theorem decode_encode (wf : i.WellFormed) : decode (encode i) = .ok i := by
  cases i with
  | cfgWr reg => exact decode_formatC_of_r (mn := .cfgWr) rfl fun _ => wf
  | cfgRd reg => exact decode_formatC_of_r (mn := .cfgRd) rfl nofun
  | mcsInfo mcs => exact decode_formatC_of_m (mn := .mcsInfo) rfl mcs
  | blockPlan mcs => exact decode_formatC_of_m (mn := .blockPlan) rfl mcs
  | serialize => exact decode_formatC_of_n (mn := .serialize) rfl
  | deserialize => exact decode_formatC_of_n (mn := .deserialize) rfl
  | segment => exact decode_formatC_of_n (mn := .segment) rfl
  | reassemble => exact decode_formatC_of_n (mn := .reassemble) rfl
  | bqPush => exact decode_formatC_of_n (mn := .bqPush) rfl
  | bqClear => exact decode_formatC_of_n (mn := .bqClear) rfl
  | timingInit => exact decode_formatC_of_n (mn := .timingInit) rfl
  | dataRate mcs => exact decode_formatC_of_m (mn := .dataRate) rfl mcs
  | blockTime mcs => exact decode_formatC_of_m (mn := .blockTime) rfl mcs
  | burstTime mcs => exact decode_formatC_of_m (mn := .burstTime) rfl mcs
  | nrSymbols mcs => exact decode_formatC_of_m (mn := .nrSymbols) rfl mcs
  | nrBytes mcs => exact decode_formatC_of_m (mn := .nrBytes) rfl mcs

/-! ### Mask and match -/

/-- The encoding of a command matches its row of the opcode map (R55). -/
theorem matchesOpcode_encode (i : Instr) : matchesOpcode (mnemonicOf i) (encode i) = true := by
  cases i with
  | cfgWr reg => exact Laws.EncodedMatch.cfgWr reg
  | cfgRd reg => exact Laws.EncodedMatch.cfgRd reg
  | mcsInfo mcs => exact Laws.EncodedMatch.mcsInfo mcs
  | blockPlan mcs => exact Laws.EncodedMatch.blockPlan mcs
  | serialize => exact Laws.EncodedMatch.serialize
  | deserialize => exact Laws.EncodedMatch.deserialize
  | segment => exact Laws.EncodedMatch.segment
  | reassemble => exact Laws.EncodedMatch.reassemble
  | bqPush => exact Laws.EncodedMatch.bqPush
  | bqClear => exact Laws.EncodedMatch.bqClear
  | timingInit => exact Laws.EncodedMatch.timingInit
  | dataRate mcs => exact Laws.EncodedMatch.dataRate mcs
  | blockTime mcs => exact Laws.EncodedMatch.blockTime mcs
  | burstTime mcs => exact Laws.EncodedMatch.burstTime mcs
  | nrSymbols mcs => exact Laws.EncodedMatch.nrSymbols mcs
  | nrBytes mcs => exact Laws.EncodedMatch.nrBytes mcs

/-- Matching fixes every field the mask covers (R55). -/
theorem extractLsb'_of_matchesOpcode {start len : Nat} (matched : matchesOpcode mn w = true)
    (covered : (classMask (fieldClass mn)).extractLsb' start len = BitVec.allOnes len) :
    w.extractLsb' start len = (formatC (opcOf mn) 0 0).extractLsb' start len := by
  have shifted : (opcOf mn).zeroExtend 32 <<< 24 = formatC (opcOf mn) 0 0 := by cases mn <;> rfl
  have masked : w &&& classMask (fieldClass mn) = formatC (opcOf mn) 0 0 := (beq_iff_eq.mp matched).trans shifted
  rw [← masked, BitVec.extractLsb'_and, covered, BitVec.and_allOnes]

/-- Every class covers the opcode and both reserved fields. -/
theorem eq_formatC_of_matchesOpcode (matched : matchesOpcode mn w = true) :
    w = formatC (opcOf mn) (mcsField w) (regField w) := by
  have opc : opcField w = opcOf mn :=
    (extractLsb'_of_matchesOpcode matched (by cases fieldClass mn <;> rfl)).trans (opcField_formatC _ _ _)
  have reserved0 : rsv0Field w = 0 :=
    (extractLsb'_of_matchesOpcode matched (by cases fieldClass mn <;> rfl)).trans (rsv0Field_formatC _ _ _)
  have reserved1 : rsv1Field w = 0 :=
    (extractLsb'_of_matchesOpcode matched (by cases fieldClass mn <;> rfl)).trans (rsv1Field_formatC _ _ _)
  exact opc ▸ eq_formatC_of_reserved reserved0 reserved1

theorem classMask_mcs {cls : FieldClass} (unused : cls ≠ .m) :
    (classMask cls).extractLsb' 16 3 = BitVec.allOnes 3 := by
  cases cls
  exacts [absurd rfl unused, rfl, rfl]

theorem classMask_reg {cls : FieldClass} (unused : cls ≠ .r) :
    (classMask cls).extractLsb' 0 8 = BitVec.allOnes 8 := by
  cases cls
  exacts [rfl, absurd rfl unused, rfl]

theorem mcsField_of_matchesOpcode (matched : matchesOpcode mn w = true) (unused : fieldClass mn ≠ .m) :
    mcsField w = 0 :=
  (extractLsb'_of_matchesOpcode matched (classMask_mcs unused)).trans
    (mcsField_formatC _ _ _)

theorem regField_of_matchesOpcode (matched : matchesOpcode mn w = true) (unused : fieldClass mn ≠ .r) :
    regField w = 0 :=
  (extractLsb'_of_matchesOpcode matched (classMask_reg unused)).trans
    (regField_formatC _ _ _)

theorem decode_of_matchesOpcode_m (matched : matchesOpcode mn w = true) (cls : fieldClass mn = .m) :
    decode w = .ok (instrOf mn (mcsOfBits (mcsField w)) .bw) := by
  have word := eq_formatC_of_matchesOpcode matched
  rw [regField_of_matchesOpcode matched (by simp [cls]), ← mcsBits_mcsOfBits (mcsField w)] at word
  exact (congrArg decode word).trans (decode_formatC_of_m cls _)

theorem decode_of_matchesOpcode_n (matched : matchesOpcode mn w = true) (cls : fieldClass mn = .n) :
    decode w = .ok (instrOf mn .bpsk_1_2 .bw) := by
  have word := eq_formatC_of_matchesOpcode matched
  rw [regField_of_matchesOpcode matched (by simp [cls]), mcsField_of_matchesOpcode matched (by simp [cls])] at word
  exact (congrArg decode word).trans (decode_formatC_of_n cls)

theorem decode_of_matchesOpcode_r (matched : matchesOpcode mn w = true) (cls : fieldClass mn = .r)
    (index : regIndex reg = regField w) (writable : mn = .cfgWr → reg.isWritable = true) :
    decode w = .ok (instrOf mn .bpsk_1_2 reg) := by
  have word := eq_formatC_of_matchesOpcode matched
  rw [mcsField_of_matchesOpcode matched (by simp [cls]), ← index] at word
  exact (congrArg decode word).trans (decode_formatC_of_r cls writable)

theorem fieldClass_eq_r_iff : fieldClass mn = .r ↔ mn = .cfgWr ∨ mn = .cfgRd := by
  cases mn <;> decide

/-- The register field of the two class R encodings (R57). -/
theorem regField_encode_of_r (named : i = .cfgWr reg ∨ i = .cfgRd reg) :
    (encode i).toNat % 256 = (regIndex reg).toNat := by
  rcases named with rfl | rfl <;> rw [← regField_toNat, encode, regField_formatC]

/-! ### The assembler's line for a command -/

/-- The line that names the fields of a command and no others (R70). -/
def lineOf : Instr → Machine.AsmLine
  | .cfgWr reg => { mnemonic := .cfgWr, reg := some reg }
  | .cfgRd reg => { mnemonic := .cfgRd, reg := some reg }
  | .mcsInfo mcs => { mnemonic := .mcsInfo, mcs := some mcs }
  | .blockPlan mcs => { mnemonic := .blockPlan, mcs := some mcs }
  | .dataRate mcs => { mnemonic := .dataRate, mcs := some mcs }
  | .blockTime mcs => { mnemonic := .blockTime, mcs := some mcs }
  | .burstTime mcs => { mnemonic := .burstTime, mcs := some mcs }
  | .nrSymbols mcs => { mnemonic := .nrSymbols, mcs := some mcs }
  | .nrBytes mcs => { mnemonic := .nrBytes, mcs := some mcs }
  | i => { mnemonic := mnemonicOf i }

theorem instrOf_lineOf (i : Instr) :
    instrOf (lineOf i).mnemonic ((lineOf i).mcs.getD .bpsk_1_2) ((lineOf i).reg.getD .bw) = i := by
  cases i <;> rfl

theorem fieldsAllowed_of_m (cls : fieldClass mn = .m) (named : mcs ≠ .code7) :
    Machine.fieldsAllowed { mnemonic := mn, mcs := some mcs } = true := by
  simp [Machine.fieldsAllowed, cls, named]

/-- Code 7 is the one field value a line cannot name (R58). -/
theorem fieldsAllowed_lineOf
    (named : ∀ mk ∈ [Instr.mcsInfo, .blockPlan, .dataRate, .blockTime, .burstTime, .nrSymbols, .nrBytes],
      i ≠ mk .code7) : Machine.fieldsAllowed (lineOf i) = true := by
  have other (mk : McsCode → Instr) (mcs : McsCode) (made : i = mk mcs)
      (listed : mk ∈ [Instr.mcsInfo, .blockPlan, .dataRate, .blockTime, .burstTime, .nrSymbols, .nrBytes]) :
      mcs ≠ .code7 := fun unnamed => named mk listed (unnamed ▸ made)
  cases i with
  | mcsInfo mcs => exact fieldsAllowed_of_m (mn := .mcsInfo) rfl (other _ _ rfl (by simp))
  | blockPlan mcs => exact fieldsAllowed_of_m (mn := .blockPlan) rfl (other _ _ rfl (by simp))
  | dataRate mcs => exact fieldsAllowed_of_m (mn := .dataRate) rfl (other _ _ rfl (by simp))
  | blockTime mcs => exact fieldsAllowed_of_m (mn := .blockTime) rfl (other _ _ rfl (by simp))
  | burstTime mcs => exact fieldsAllowed_of_m (mn := .burstTime) rfl (other _ _ rfl (by simp))
  | nrSymbols mcs => exact fieldsAllowed_of_m (mn := .nrSymbols) rfl (other _ _ rfl (by simp))
  | nrBytes mcs => exact fieldsAllowed_of_m (mn := .nrBytes) rfl (other _ _ rfl (by simp))
  | _ => rfl

theorem assemble_eq_some {l : Machine.AsmLine} {x : Machine.Transaction} (assembled : Machine.assemble l = some x) :
    (instrOf l.mnemonic (l.mcs.getD .bpsk_1_2) (l.reg.getD .bw)).WellFormed ∧
      x = { cmd := encode (instrOf l.mnemonic (l.mcs.getD .bpsk_1_2) (l.reg.getD .bw)), a0 := l.a0.getD 0,
            a1 := l.a1.getD 0, din := l.din.getD .none } := by
  unfold Machine.assemble at assembled
  simp only at assembled
  split at assembled
  · rename_i accepted
    exact ⟨(Bool.and_eq_true_iff.mp accepted).2, (Option.some.inj assembled).symm⟩
  · cases assembled

theorem assemble_lineOf (wf : i.WellFormed) (allowed : Machine.fieldsAllowed (lineOf i) = true) :
    ∃ x, Machine.assemble (lineOf i) = some x ∧ x.cmd = encode i := by
  simp only [Machine.assemble, instrOf_lineOf, allowed, Bool.true_and]
  rw [if_pos wf]
  exact ⟨_, rfl, rfl⟩

end

/-- Settles O1: a legal word is the encoding of the term made from its fields, and each class decodes what it
encodes. -/
theorem decodeExactlyInvertsEncode : Obligations.DecodeExactlyInvertsEncode := by
  intro w i
  constructor
  · exact wellFormed_and_encode_of_decode
  · rintro ⟨wf, rfl⟩
    exact decode_encode wf

/-- Settles O2: a legal word is an encoding, which matches its row and whose register index is assigned; conversely a
match fixes every field the class does not use, so the word decodes. -/
theorem legalWordsAreTableMatches : Obligations.LegalWordsAreTableMatches := by
  intro w mn
  constructor
  · rintro ⟨i, legal, rfl⟩
    obtain ⟨wf, rfl⟩ := wellFormed_and_encode_of_decode legal
    refine ⟨matchesOpcode_encode i, fun isWr => ?_, fun isRd => ?_⟩
    · cases i <;> cases isWr
      rw [regField_encode_of_r (.inl rfl)]
      exact isWritable_iff_regIndex_le.mp wf
    · cases i <;> cases isRd
      rw [regField_encode_of_r (.inr rfl)]
      exact regIndex_assigned _
  · rintro ⟨matched, isWr, isRd⟩
    rw [← regField_toNat] at isWr isRd
    cases cls : fieldClass mn with
    | m => exact ⟨_, decode_of_matchesOpcode_m matched cls, mnemonicOf_instrOf _ _ _⟩
    | n => exact ⟨_, decode_of_matchesOpcode_n matched cls, mnemonicOf_instrOf _ _ _⟩
    | r =>
      obtain ⟨reg, index⟩ : ∃ reg, regIndex reg = regField w := by
        rcases fieldClass_eq_r_iff.mp cls with rfl | rfl
        · exact exists_regIndex_eq (.inl (isWr rfl))
        · exact exists_regIndex_eq (isRd rfl)
      have writable : mn = .cfgWr → reg.isWritable = true := fun wr =>
        isWritable_iff_regIndex_le.mpr (index ▸ isWr wr)
      exact ⟨_, decode_of_matchesOpcode_r matched cls index writable, mnemonicOf_instrOf _ _ _⟩

/-- Settles O4: what assembles is the encoding of a well-formed term, and every legal word is the encoding of the term
its line names. -/
theorem assemblerMakesOnlyLegalWords : Obligations.AssemblerMakesOnlyLegalWords := by
  refine ⟨fun l x assembled => ?_, fun w i legal named => ?_⟩
  · obtain ⟨wf, rfl⟩ := assemble_eq_some assembled
    exact ⟨_, decode_encode wf, mnemonicOf_instrOf _ _ _, rfl, rfl, rfl⟩
  · obtain ⟨wf, rfl⟩ := wellFormed_and_encode_of_decode legal
    exact ⟨lineOf i, assemble_lineOf wf (fieldsAllowed_lineOf named)⟩

/-- Settles O3, word by word of R72. -/
theorem exampleWordsDecode : Obligations.ExampleWordsDecode :=
  ⟨by decide, fun _ => rfl, by decide, by decide⟩

end Sys2Proof
end

section
/-! PROOF. One step, event by event (60_exceptions.md R144, R145, R149; 70_reset_and_hazards.md R163): what it does with
a command, an illegal word, a halted machine and a reset, and that it always answers a next state. -/

namespace Sys2Proof.Machine

section
variable {run : Instr → State → Answer} {P : Params} {s t : State} {x : Transaction} {rest : List HostEvent} {i : Instr}

/-! ### The events -/

theorem takeEvent_reset (first : s.inbox = .reset :: rest) :
    takeEvent run s = .next { State.reset with inbox := rest } := by
  simp only [takeEvent, first, resetEvent]

theorem takeEvent_halted (halted : s.halted = true) (first : s.inbox = .present x :: rest) :
    takeEvent run s = .next { s with inbox := rest, dout := .none } := by
  simp only [takeEvent, first, transact, halted, if_true, answerHalted]

theorem takeEvent_illegal {e : IllegalWord} (running : s.halted = false) (first : s.inbox = .present x :: rest)
    (illegal : decode x.cmd = .error e) :
    takeEvent run s = retireAnswer (raiseFatal .illegalCommand { s with inbox := rest }) := by
  simp only [takeEvent, first, transact, running, executeTransaction, illegal]
  rfl

theorem takeEvent_command (running : s.halted = false) (first : s.inbox = .present x :: rest)
    (legal : decode x.cmd = .ok i) :
    takeEvent run s = retireAnswer (run i (accept x { s with inbox := rest })) := by
  simp only [takeEvent, first, transact, running, executeTransaction, legal]
  rfl

/-- A command that answers a next state is retired from it (R144). -/
theorem takeEvent_eq_next_retire (running : s.halted = false) (first : s.inbox = .present x :: rest)
    (legal : decode x.cmd = .ok i) (ran : run i (accept x { s with inbox := rest }) = .next t) :
    takeEvent run s = .next (retire t) := by
  rw [takeEvent_command running first legal, ran, retireAnswer]

/-! ### Every answer is a next state -/

/-- The machine goes on: neither a fault nor a refusal. -/
def AnswersNext (a : Answer) : Prop := ∃ t, a = .next t

theorem answersNext_complete (r : Results) (d : Payload) (s : State) : AnswersNext (complete r d s) := ⟨_, rfl⟩

theorem answersNext_raiseFatal (c : FatalCause) (s : State) : AnswersNext (raiseFatal c s) := ⟨_, rfl⟩

theorem answersNext_raiseCErr (e : CmdError) (s : State) : AnswersNext (raiseCErr e s) := ⟨_, rfl⟩

theorem answersNext_ite {p : Prop} [Decidable p] {a b : Answer} (ha : AnswersNext a) (hb : AnswersNext b) :
    AnswersNext (if p then a else b) := by
  split
  · exact ha
  · exact hb

theorem answersNext_withMcs {m : McsCode} {k : McsRow → Answer} (h : ∀ row, AnswersNext (k row)) :
    AnswersNext (withMcs P m s k) := by
  rcases withMcs_cases (P := P) (m := m) (k := k) (s := s) rfl with ⟨-, fatal⟩ | ⟨row, -, ran⟩
  · exact fatal ▸ answersNext_raiseFatal _ _
  · exact ran ▸ h row

theorem answersNext_withTiming {m : McsCode} {k : McsRow → Answer} (h : ∀ row, AnswersNext (k row)) :
    AnswersNext (withTiming P m s k) :=
  answersNext_withMcs fun row => answersNext_ite (h row) (answersNext_raiseFatal _ _)

theorem answersNext_retireAnswer {a : Answer} (h : AnswersNext a) : AnswersNext (retireAnswer a) := by
  obtain ⟨t, rfl⟩ := h
  exact ⟨retire t, rfl⟩

theorem execWith_answersNext (P : Params) (i : Instr) (s : State) : AnswersNext (execWith P i s) := by
  have fails (e : CmdError) : AnswersNext (raiseCErr e s) := answersNext_raiseCErr e s
  have halts (c : FatalCause) : AnswersNext (raiseFatal c s) := answersNext_raiseFatal c s
  have completes (r : Results) (d : Payload) (s' : State) : AnswersNext (complete r d s') := answersNext_complete r d s'
  cases i with
  | cfgWr reg =>
    change AnswersNext (execCfgWr reg s)
    unfold execCfgWr
    split
    · exact halts _
    · exact answersNext_ite (fails _) (completes _ _ _)
  | cfgRd reg => exact answersNext_ite (fails _) (completes _ _ _)
  | mcsInfo m => exact answersNext_withMcs fun _ => completes _ _ _
  | blockPlan m =>
    exact answersNext_withMcs fun _ => answersNext_ite (fails _) (answersNext_ite (halts _) (completes _ _ _))
  | serialize =>
    change AnswersNext (serializeCmd P s)
    unfold serializeCmd
    split
    · exact fails _
    · exact answersNext_ite (fails _) (completes _ _ _)
  | deserialize =>
    change AnswersNext (deserializeCmd P s)
    unfold deserializeCmd
    split
    · exact fails _
    · refine answersNext_ite (fails _) (answersNext_ite (fails _) ?_)
      split
      · exact fails _
      · exact completes _ _ _
  | segment =>
    change AnswersNext (segmentCmd P s)
    unfold segmentCmd
    split
    · exact fails _
    · exact answersNext_ite (fails _) (answersNext_ite (fails _) (answersNext_ite (fails _) (completes _ _ _)))
  | reassemble =>
    exact answersNext_ite (fails _) (answersNext_ite (fails _) (answersNext_ite (fails _) (completes _ _ _)))
  | bqPush =>
    change AnswersNext (bqPushCmd P s)
    unfold bqPushCmd
    split
    · exact fails _
    · exact answersNext_ite (fails _) (answersNext_ite (fails _) (completes _ _ _))
  | bqClear => exact completes _ _ _
  | timingInit =>
    exact answersNext_ite (halts _) (answersNext_ite (halts _) (answersNext_ite (halts _)
      (answersNext_ite (halts _) (completes _ _ _))))
  | dataRate m => exact answersNext_withTiming fun _ => completes _ _ _
  | blockTime m => exact answersNext_withTiming fun _ => answersNext_ite (fails _) (completes _ _ _)
  | burstTime m =>
    exact answersNext_withTiming fun _ => answersNext_ite (fails _) (answersNext_ite (fails _) (completes _ _ _))
  | nrSymbols m => exact answersNext_withTiming fun _ => answersNext_ite (fails _) (completes _ _ _)
  | nrBytes m => exact answersNext_withTiming fun _ => completes _ _ _

theorem stepWith_answersNext (P : Params) (s : State) : AnswersNext (stepWith P s) := by
  unfold stepWith
  rcases takeEvent_cases (run := execWith P) (s := s) rfl with
    ⟨-, idle⟩ | ⟨rest, -, reset⟩ | ⟨x, rest, -, -, halted⟩ | ⟨x, rest, e, -, -, -, illegal⟩ | ⟨x, rest, i, -, -, -, ran⟩
  · exact ⟨_, idle⟩
  · exact ⟨_, reset⟩
  · exact ⟨_, halted⟩
  · exact illegal ▸ answersNext_retireAnswer (answersNext_raiseFatal _ _)
  · exact ran ▸ answersNext_retireAnswer (execWith_answersNext P i _)

/-! ### A halted machine -/

theorem run_succ_of_next {M : Host.Core} {a b : M.State} (first : M.step a = .next b) (k : Nat) :
    M.run (k + 1) a = M.run k b := by
  simp only [Host.Core.run, first]

/-- Any number of transactions presented to a halted machine (R145). -/
theorem run_halted (ts : List Transaction) (some : ts ≠ []) (halted : s.halted = true)
    (presented : s.inbox = ts.map .present ++ rest) :
    Host.Core.run core ts.length s = .next { s with inbox := rest, dout := .none } := by
  induction ts generalizing s with
  | nil => exact absurd rfl some
  | cons x ts ih =>
    have first : core.step s = .next { s with inbox := ts.map .present ++ rest, dout := .none } :=
      takeEvent_halted halted presented
    refine (run_succ_of_next first ts.length).trans ?_
    cases ts with
    | nil => rfl
    | cons y ts => exact ih (List.cons_ne_nil y ts) halted rfl

end

/-- Settles O11. -/
theorem everyStepAnswersNext : Obligations.EveryStepAnswersNext := by
  refine ⟨fun i s => ?_, fun s => ?_⟩
  · exact execWith_params ▸ execWith_answersNext params i s
  · exact stepWith_params ▸ stepWith_answersNext params s

/-- Settles O7, by induction on the transactions: each one leaves the machine halted for the next. -/
theorem haltedMachineIsStuck : Obligations.HaltedMachineIsStuck :=
  fun ts _ _ halted some presented => ⟨_, run_halted ts some halted presented, rfl, rfl⟩

/-- Settles O5. -/
theorem stepRunsTheDecodedCommand : Obligations.StepRunsTheDecodedCommand :=
  fun _ _ _ _ _ running first legal ran =>
    ⟨(wellFormed_and_encode_of_decode legal).1, takeEvent_eq_next_retire running first legal ran⟩

/-- Settles O6. -/
theorem illegalWordHalts : Obligations.IllegalWordHalts :=
  fun _ _ _ _ running first illegal => takeEvent_illegal running first illegal

/-- Settles O8: without a reset in front a halted machine idles or answers as halted. -/
theorem onlyResetLeavesTheHalt : Obligations.OnlyResetLeavesTheHalt := by
  intro s t halted stepped noReset
  cases events : s.inbox with
  | nil =>
    have idle : step s = .next s := by simp only [step, takeEvent, events]
    cases idle.symm.trans stepped
    rw [List.tail_nil, ← events]
  | cons e rest =>
    cases e with
    | reset => exact absurd events (noReset rest)
    | present x =>
      cases (takeEvent_halted halted events).symm.trans stepped
      rfl

/-- Settles O9. -/
theorem resetEventRestores : Obligations.ResetEventRestores :=
  fun _ _ first => ⟨_, takeEvent_reset first, rfl, rfl, rfl, rfl, rfl, rfl, rfl, rfl, rfl⟩

/-- Settles O59. -/
theorem anyParametersStep : Obligations.AnyParametersStep :=
  ⟨fun _ _ _ _ _ _ running first legal ran => takeEvent_eq_next_retire running first legal ran,
    fun i s => congrFun (congrFun execWith_params i) s, fun s => congrFun stepWith_params s⟩

end Sys2Proof.Machine
end

section
/-! PROOF. How every command can end, and what follows from it: fatals and command errors are precise (60_exceptions.md
R148 to R155), the frames of the commands (20_memory.md R44, R46; 10_state.md R22), and the invariant (10_state.md R15,
R21 to R24). -/

namespace Sys2Proof.Machine

section
variable {P : Params} {s s' t : State} {i : Instr} {reg : Reg}

/-! ### CFG_WR (40_config.md R73) -/

theorem writeWidth_eq_none_iff : writeWidth reg = none ↔ reg.isWritable = false := by
  cases reg <;> decide

theorem execCfgWr_of_readOnly (readOnly : reg.isWritable = false) : execCfgWr reg s = raiseFatal .illegalCommand s := by
  simp only [execCfgWr, writeWidth_eq_none_iff.mpr readOnly]

theorem execCfgWr_of_tooWide {w : Nat} (width : writeWidth reg = some w) (tooWide : 2 ^ w ≤ opA0 s) :
    execCfgWr reg s = raiseCErr .operandRange s := by
  simp only [execCfgWr, width]
  exact if_pos tooWide

theorem execCfgWr_of_fits {w : Nat} (width : writeWidth reg = some w) (fits : opA0 s < 2 ^ w) :
    execCfgWr reg s =
      complete (results 0 0 0 0) .none { s with cfg := writeCfg reg (opA0 s) s.cfg, tv := false } := by
  simp only [execCfgWr, width]
  exact if_neg fits.not_ge

/-! ### TIMING_INIT's checks in the words of R19 and R119 (44_timing.md R126) -/

theorem bitVec_ne_zero_iff {n : Nat} {v : BitVec n} : v ≠ 0 ↔ 1 ≤ v.toNat := by
  rw [Nat.one_le_iff_ne_zero, ne_eq, ne_eq, ← BitVec.toNat_inj]
  rfl

theorem configInRange_eq_true_iff {c : Cfg} :
    configInRange c = true ↔ 1 ≤ c.bw.toNat ∧ 256 ≤ c.fft.toNat ∧ c.fft.toNat ≤ 1024 ∧ 1 ≤ c.gden.toNat ∧
      c.gnum.toNat ≤ c.gden.toNat := by
  simp only [configInRange, Bool.not_eq_true', Bool.or_eq_false_iff, beq_eq_false_iff_ne, decide_eq_false_iff_not,
    bitVec_ne_zero_iff, and_assoc, not_lt, gt_iff_lt]
  rfl

theorem ite_some_ne_none_iff {α : Type} {p : Prop} [Decidable p] {a : α} {o : Option α} :
    (if p then some a else o) ≠ none ↔ p ∨ o ≠ none := by
  split <;> simp [*]

theorem keyIndex_ne_none_iff {bw : Nat} :
    keyIndex bw ≠ none ↔ ∃ k ∈ [1750000, 1500000, 1250000, 2750000, 2000000], bw % k = 0 := by
  simp only [keyIndex, ite_some_ne_none_iff, List.exists_mem_cons_iff, List.not_mem_nil, false_and, exists_false, ne_eq,
    not_true_eq_false]
  rfl

theorem samplingFactor_ne_none_iff {c : Cfg} : samplingFactor P c ≠ none ↔
    ∃ k ∈ [1750000, 1500000, 1250000, 2750000, 2000000], c.bw.toNat % k = 0 := by
  rw [samplingFactor, ne_eq, Option.map_eq_none_iff, ← ne_eq, keyIndex_ne_none_iff]

theorem acceptedConfig_iff {c : Cfg} : AcceptedConfig P c ↔
    configInRange c = true ∧ samplingFactor P c ≠ none ∧ P.frameDur c.frameCode ≠ none ∧
      derivedFits (derived P c) = true := by
  rw [configInRange_eq_true_iff, samplingFactor_ne_none_iff]
  constructor
  · rintro ⟨bw, ⟨fftMin, fftMax⟩, gden, g, key, code, fits⟩
    exact ⟨⟨bw, fftMin, fftMax, gden, g⟩, key, code, fits⟩
  · rintro ⟨⟨bw, fftMin, fftMax, gden, g⟩, key, code, fits⟩
    exact ⟨bw, ⟨fftMin, fftMax⟩, gden, g, key, code, fits⟩

/-- TIMING_INIT latches exactly the accepted configurations (R126). -/
theorem timingInitCmd_of_accepted (accepted : AcceptedConfig P s.cfg) :
    timingInitCmd P s =
      complete (results (derived P s.cfg).tsTicks (derived P s.cfg).symPerFrame (derived P s.cfg).psPerSym
        (derived P s.cfg).fsHz) .none { s with tcfg := s.cfg, tv := true } := by
  obtain ⟨range, key, code, fits⟩ := acceptedConfig_iff.mp accepted
  simp only [timingInitCmd]
  rw [if_neg (by simp [range]), if_neg key, if_neg code, if_neg (by simp [fits])]

theorem timingInitCmd_ends_latched (h : timingInitCmd P s = .next t) :
    Ends (fun s' => AcceptedConfig P s.cfg ∧ s' = { s with tcfg := s.cfg, tv := true }) s t := by
  by_cases accepted : AcceptedConfig P s.cfg
  · exact ends_complete ⟨accepted, rfl⟩ (timingInitCmd_of_accepted accepted ▸ h)
  · have refused := mt acceptedConfig_iff.mpr accepted
    unfold timingInitCmd at h
    simp only at h
    split at h
    · exact ends_fatal h
    · split at h
      · exact ends_fatal h
      · split at h
        · exact ends_fatal h
        · split at h
          · exact ends_fatal h
          · exact absurd ⟨by simp_all, ‹_›, ‹_›, by simp_all⟩ refused

/-! ### All commands -/

/-- What a completion changes before the results are written, command by command. -/
def Leaves (P : Params) (s s' : State) : Instr → Prop
  | .cfgWr reg => s' = { s with cfg := writeCfg reg (opA0 s) s.cfg, tv := false }
  | .segment => ∃ blocks, (∀ blk ∈ blocks, badBlockSize P blk.length = false) ∧
      s.bq.length + blocks.length ≤ P.qdepth ∧ s' = bqPushAll blocks s
  | .reassemble => s' = bqDrop (opA0 s) s
  | .bqPush => ∃ blk, badBlockSize P blk.length = false ∧ s.bq.length ≠ P.qdepth ∧ s' = bqPushAll [blk] s
  | .bqClear => s' = { s with bq := [] }
  | .timingInit => AcceptedConfig P s.cfg ∧ s' = { s with tcfg := s.cfg, tv := true }
  | .cfgRd _ | .mcsInfo _ | .blockPlan _ | .serialize | .deserialize | .dataRate _ | .blockTime _ | .burstTime _
  | .nrSymbols _ | .nrBytes _ => s' = s

theorem Ends.imp {did did' : State → Prop} (weaker : ∀ s', did s' → did' s') (ends : Ends did s t) : Ends did' s t := by
  cases ends with
  | fatal c h => exact .fatal c h
  | cerr e h => exact .cerr e h
  | done s' hs r d h => exact .done s' (weaker s' hs) r d h

/-- The blocks SEGMENT appends have the size it checked. -/
theorem segmentCmd_ends_blocks (h : segmentCmd P s = .next t) : Ends (Leaves P s · .segment) s t := by
  refine (segmentCmd_ends h).imp ?_
  rintro _ ⟨bits, -, size, room, rfl⟩
  have sized := length_of_mem_paddedBlocks (bits := bits) (badBlockSize_eq_false_iff.mp size).1
  refine ⟨paddedBlocks (opA0 s) bits, fun blk member => ?_, ?_, rfl⟩
  · rw [sized blk member, size]
  · rwa [paddedBlocks_length]

theorem execWith_ends (h : execWith P i s = .next t) : Ends (Leaves P s · i) s t := by
  cases i with
  | cfgWr reg => exact execCfgWr_ends h
  | cfgRd reg => exact cfgRdCmd_ends h
  | mcsInfo m => exact mcsInfoCmd_ends h
  | blockPlan m => exact blockPlanCmd_ends h
  | serialize => exact serializeCmd_ends h
  | deserialize => exact deserializeCmd_ends h
  | segment => exact segmentCmd_ends_blocks h
  | reassemble => exact (reassembleCmd_ends h).imp fun _ did => did.2
  | bqPush => exact (bqPushCmd_ends h).imp fun _ ⟨blk, _, size, room, did⟩ => ⟨blk, size, room, did⟩
  | bqClear => exact execBqClear_ends h
  | timingInit => exact timingInitCmd_ends_latched h
  | dataRate m => exact dataRateCmd_ends h
  | blockTime m => exact blockTimeCmd_ends h
  | burstTime m => exact burstTimeCmd_ends h
  | nrSymbols m => exact nrSymbolsCmd_ends h
  | nrBytes m => exact nrBytesCmd_ends h

/-! ### What a completion keeps -/

/-- A completion touches nothing but CFG, TV, TCFG and the queue before the results are written. -/
theorem Leaves.frame (did : Leaves P s s' i) :
    s' = { s with cfg := s'.cfg, tv := s'.tv, tcfg := s'.tcfg, bq := s'.bq } := by
  cases i with
  | segment => obtain ⟨_, _, _, rfl⟩ := did; rfl
  | bqPush => obtain ⟨_, _, _, rfl⟩ := did; rfl
  | timingInit => obtain ⟨_, rfl⟩ := did; rfl
  | _ => cases did; rfl

theorem Leaves.halted_eq (did : Leaves P s s' i) : s'.halted = s.halted := by
  rw [did.frame]

theorem Leaves.eq_of_readsOnly (reads : readsOnly i = true) (did : Leaves P s s' i) : s' = s := by
  cases i
  case cfgWr | segment | reassemble | bqPush | bqClear | timingInit => cases reads
  all_goals exact did

/-- CFG_WR clears TV, TIMING_INIT latches CFG, and nothing else touches CFG, TCFG or TV (10_state.md R22). -/
theorem Leaves.config (did : Leaves P s s' i) :
    (∃ reg, i = .cfgWr reg ∧ s'.tcfg = s.tcfg ∧ s'.tv = false) ∨
      (i = .timingInit ∧ s'.cfg = s.cfg ∧ s'.tcfg = s.cfg ∧ s'.tv = true) ∨
      (s'.cfg = s.cfg ∧ s'.tcfg = s.tcfg ∧ s'.tv = s.tv) := by
  cases i with
  | cfgWr reg => cases did; exact .inl ⟨reg, rfl, rfl, rfl⟩
  | timingInit => obtain ⟨_, rfl⟩ := did; exact .inr (.inl ⟨rfl, rfl, rfl, rfl⟩)
  | segment => obtain ⟨_, _, _, rfl⟩ := did; exact .inr (.inr ⟨rfl, rfl, rfl⟩)
  | bqPush => obtain ⟨_, _, _, rfl⟩ := did; exact .inr (.inr ⟨rfl, rfl, rfl⟩)
  | _ => cases did; exact .inr (.inr ⟨rfl, rfl, rfl⟩)

/-- A failed command keeps the configuration too. -/
theorem execWith_config (h : execWith P i s = .next t) :
    (∃ reg, i = .cfgWr reg ∧ t.tcfg = s.tcfg ∧ t.tv = false) ∨
      (i = .timingInit ∧ t.cfg = s.cfg ∧ t.tcfg = s.cfg ∧ t.tv = true) ∨
      (t.cfg = s.cfg ∧ t.tcfg = s.tcfg ∧ t.tv = s.tv) := by
  cases execWith_ends h with
  | fatal c h => exact h ▸ .inr (.inr ⟨rfl, rfl, rfl⟩)
  | cerr e h => exact h ▸ .inr (.inr ⟨rfl, rfl, rfl⟩)
  | done s' did r d h => exact h ▸ did.config

theorem execWith_keeps_port (h : execWith P i s = .next t) :
    t.a0 = s.a0 ∧ t.a1 = s.a1 ∧ t.din = s.din ∧ t.inbox = s.inbox ∧ t.completed = s.completed := by
  cases execWith_ends h with
  | fatal c h => exact h ▸ ⟨rfl, rfl, rfl, rfl, rfl⟩
  | cerr e h => exact h ▸ ⟨rfl, rfl, rfl, rfl, rfl⟩
  | done s' did r d h => rw [h, did.frame]; exact ⟨rfl, rfl, rfl, rfl, rfl⟩

/-- A write of a writable register that raises no error has cleared TV (40_config.md R73). -/
theorem execCfgWr_clears_tv (writable : reg.isWritable = true) (h : execCfgWr reg s = .next t) (noError : t.cerr = 0) :
    t.tv = false := by
  obtain ⟨w, width⟩ : ∃ w, writeWidth reg = some w :=
    Option.ne_none_iff_exists'.mp (mt writeWidth_eq_none_iff.mp (by simp [writable]))
  rcases Nat.lt_or_ge (opA0 s) (2 ^ w) with fits | tooWide
  · rw [execCfgWr_of_fits width fits, complete_eq_next_iff] at h
    exact h ▸ rfl
  · rw [execCfgWr_of_tooWide width tooWide, raiseCErr_eq_next_iff] at h
    rw [h] at noError
    exact absurd noError (by decide : cerrCode .operandRange ≠ 0)

/-! ### Failures -/

theorem Ends.fatal_of_halts (ends : Ends (Leaves P s · i) s t) (running : s.halted = false) (halts : t.halted = true) :
    ∃ c, t = { s with halted := true, fcause := fatalCode c, cerr := 0, dout := .none } := by
  cases ends with
  | fatal c h => exact ⟨c, h⟩
  | cerr e h => rw [h] at halts; exact absurd halts (by simp [running])
  | done s' did r d h => rw [h] at halts; exact absurd (did.halted_eq.symm.trans halts) (by simp [running])

theorem Ends.cerr_of_ne_zero {did : State → Prop} (ends : Ends did s t) (error : t.cerr ≠ 0) :
    ∃ e, t = { s with cerr := cerrCode e, r := Results.zero, dout := .none } := by
  cases ends with
  | fatal c h => exact absurd (h ▸ rfl) error
  | cerr e h => exact ⟨e, h⟩
  | done s' did r d h => exact absurd (h ▸ rfl) error

/-- The two ways a step halts a running machine: an illegal word, or a command's fatal. -/
theorem stepWith_halts (running : s.halted = false) (stepped : stepWith P s = .next t) (halts : t.halted = true) :
    ∃ x rest c, s.inbox = .present x :: rest ∧
      t = retire { s with halted := true, fcause := fatalCode c, cerr := 0, dout := .none, inbox := rest } := by
  rcases takeEvent_cases stepped with
    ⟨-, idle⟩ | ⟨rest, -, reset⟩ | ⟨x, rest, -, already, -⟩ | ⟨x, rest, e, first, -, -, illegal⟩ |
    ⟨x, rest, i, first, -, -, ran⟩
  · cases idle
    exact absurd halts (by simp [running])
  · cases reset
    cases halts
  · exact absurd already (by simp [running])
  · cases illegal
    exact ⟨x, rest, .illegalCommand, first, rfl⟩
  · obtain ⟨u, next, rfl⟩ := retireAnswer_eq_next_iff.mp ran.symm
    obtain ⟨c, rfl⟩ := (execWith_ends next).fatal_of_halts running halts
    exact ⟨x, rest, c, first, rfl⟩

/-- The one way a step ends in a command error. -/
theorem stepWith_fails {x : Transaction} {rest : List HostEvent} (running : s.halted = false)
    (first : s.inbox = .present x :: rest) (stepped : stepWith P s = .next t) (error : t.cerr ≠ 0) :
    ∃ e, t = retire { s with cerr := cerrCode e, r := Results.zero, dout := .none, inbox := rest } := by
  unfold stepWith at stepped
  cases legal : decode x.cmd with
  | error e =>
    rw [takeEvent_illegal running first legal] at stepped
    cases stepped
    exact absurd rfl error
  | ok i =>
    rw [takeEvent_command running first legal] at stepped
    obtain ⟨u, next, rfl⟩ := retireAnswer_eq_next_iff.mp stepped
    obtain ⟨e, rfl⟩ := (execWith_ends next).cerr_of_ne_zero error
    exact ⟨e, rfl⟩

/-! ### The invariant -/

section
variable {accepted : Cfg → Prop}

theorem invOf_reset (P : Params) (accepted : Cfg → Prop) (rest : List HostEvent) :
    InvOf P accepted { State.reset with inbox := rest } where
  queue_bounded := Nat.zero_le _
  blocks_sized := nofun
  cerr_assigned := Nat.zero_le _
  fcause_assigned := Nat.zero_le _
  fcause_iff := iff_of_true rfl rfl
  halted_cerr := nofun
  snapshot_current := nofun
  snapshot_usable := nofun
  port_idle := ⟨rfl, rfl, rfl⟩

theorem InvOf.bqPushAll {blocks : List Block} (inv : InvOf P accepted (retire s))
    (sizes : ∀ blk ∈ blocks, badBlockSize P blk.length = false) (room : s.bq.length + blocks.length ≤ P.qdepth) :
    InvOf P accepted (retire (bqPushAll blocks s)) :=
  { inv with
    queue_bounded := (List.length_append (as := s.bq) (bs := blocks)).trans_le room
    blocks_sized := fun blk member => (List.mem_append.mp member).elim (inv.blocks_sized blk)
      fun new => badBlockSize_eq_false_iff.mp (sizes blk new) }

/-- A completion keeps the invariant, if what TIMING_INIT accepts is what the invariant asks of a snapshot. -/
theorem Leaves.keepsInv (latched : ∀ c, AcceptedConfig P c → accepted c) (inv : InvOf P accepted (retire s))
    (did : Leaves P s s' i) : InvOf P accepted (retire s') := by
  cases i with
  | cfgWr reg => cases did; exact { inv with snapshot_current := nofun, snapshot_usable := nofun }
  | segment => obtain ⟨blocks, sizes, room, rfl⟩ := did; exact inv.bqPushAll sizes room
  | reassemble =>
    cases did
    exact { inv with
      queue_bounded := (List.drop_sublist _ _).length_le.trans inv.queue_bounded
      blocks_sized := fun blk member => inv.blocks_sized blk (List.mem_of_mem_drop member) }
  | bqPush =>
    obtain ⟨blk, size, notFull, rfl⟩ := did
    have room : s.bq.length < P.qdepth := lt_of_le_of_ne inv.queue_bounded notFull
    exact inv.bqPushAll (List.forall_mem_singleton.mpr size) room
  | bqClear => cases did; exact { inv with queue_bounded := Nat.zero_le _, blocks_sized := nofun }
  | timingInit =>
    obtain ⟨usable, rfl⟩ := did
    exact { inv with snapshot_current := fun _ => rfl, snapshot_usable := fun _ => latched _ usable }
  | _ => cases did; exact inv

theorem InvOf.fatal (inv : InvOf P accepted (retire s)) (c : FatalCause) :
    InvOf P accepted (retire { s with halted := true, fcause := fatalCode c, cerr := 0, dout := .none }) :=
  { inv with
    cerr_assigned := Nat.zero_le _
    fcause_assigned := (fatalCode_range c).2
    fcause_iff := ⟨nofun, fun zero => absurd zero (bitVec_ne_zero_iff.mpr (fatalCode_range c).1)⟩
    halted_cerr := fun _ => rfl }

theorem Ends.keepsInv (latched : ∀ c, AcceptedConfig P c → accepted c) (inv : InvOf P accepted (retire s))
    (running : s.halted = false) (ends : Ends (Leaves P s · i) s t) : InvOf P accepted (retire t) := by
  cases ends with
  | fatal c h => exact h ▸ inv.fatal c
  | cerr e h =>
    subst h
    exact { inv with
      cerr_assigned := (cerrCode_range e).2
      halted_cerr := fun halted => absurd (running.symm.trans halted) Bool.false_ne_true }
  | done s' did r d h =>
    subst h
    exact { did.keepsInv latched inv with cerr_assigned := Nat.zero_le _, halted_cerr := fun _ => rfl }

/-- Taking an event from the inbox and its operands into the port touches nothing the invariant speaks of. -/
theorem InvOf.retire_accept (inv : InvOf P accepted s) (x : Transaction) (rest : List HostEvent) :
    InvOf P accepted (retire (accept x { s with inbox := rest })) :=
  { inv with port_idle := ⟨rfl, rfl, rfl⟩ }

theorem stepWith_keepsInvOf (latched : ∀ c, AcceptedConfig P c → accepted c) (inv : InvOf P accepted s)
    (stepped : stepWith P s = .next t) : InvOf P accepted t := by
  rcases takeEvent_cases stepped with
    ⟨-, idle⟩ | ⟨rest, -, reset⟩ | ⟨x, rest, -, -, halted⟩ | ⟨x, rest, e, -, -, -, illegal⟩ |
    ⟨x, rest, i, -, running, -, ran⟩
  · cases idle
    exact inv
  · cases reset
    exact invOf_reset P accepted rest
  · cases halted
    exact { inv with }
  · cases illegal
    exact InvOf.fatal (s := { s with inbox := rest }) { inv with port_idle := ⟨rfl, rfl, rfl⟩ } .illegalCommand
  · obtain ⟨u, next, rfl⟩ := retireAnswer_eq_next_iff.mp ran.symm
    exact (execWith_ends next).keepsInv latched (inv.retire_accept x rest) running

end

/-- The seven default durations (44_timing.md R122). -/
theorem defaultFrameDur_of_le {code : Byte} (defined : code.toNat ≤ 6) :
    defaultFrameDur code = some (frameSeconds code.toNat) := by
  have table : ∀ n ≤ 6, defaultFrameDur (BitVec.ofNat 8 n) = some (frameSeconds n)
    | 0, _ => congrArg some (show (25 / 10000 : Rat) = 1 / 400 by norm_num)
    | 1, _ => congrArg some (show (4 / 1000 : Rat) = 1 / 250 by norm_num)
    | 2, _ => congrArg some (show (5 / 1000 : Rat) = 1 / 200 by norm_num)
    | 3, _ => congrArg some (show (8 / 1000 : Rat) = 1 / 125 by norm_num)
    | 4, _ => congrArg some (show (10 / 1000 : Rat) = 1 / 100 by norm_num)
    | 5, _ => congrArg some (show (125 / 10000 : Rat) = 1 / 80 by norm_num)
    | 6, _ => congrArg some (show (20 / 1000 : Rat) = 1 / 50 by norm_num)
  have entry := table code.toNat defined
  rwa [BitVec.ofNat_toNat, BitVec.setWidth_eq] at entry

theorem defaultFrameDur_of_lt {code : Byte} (undefined : 6 < code.toNat) : defaultFrameDur code = none := by
  unfold defaultFrameDur
  split
  case h_8 => rfl
  all_goals exact absurd undefined (by decide)

/-- With the default tables TIMING_INIT accepts only usable configurations (44_timing.md R126). -/
theorem usableConfig_of_accepted {c : Cfg} (accepted : AcceptedConfig params c) : UsableConfig c :=
  { accepted with code := not_lt.mp (mt defaultFrameDur_of_lt accepted.code) }

end

/-- Settles O60. -/
theorem anyParametersKeepInvariant : Obligations.AnyParametersKeepInvariant :=
  fun P => ⟨invOf_reset P _ [], fun _ _ inv stepped => stepWith_keepsInvOf (fun _ => id) inv stepped⟩

/-- Settles O18: what TIMING_INIT accepts with the default tables is usable. -/
theorem stepKeepsInvariant : Obligations.StepKeepsInvariant :=
  fun _ _ inv stepped => stepWith_keepsInvOf (fun _ => usableConfig_of_accepted) inv (stepWith_params ▸ stepped)

/-- Settles O19. -/
theorem resetMeetsInvariant : Obligations.ResetMeetsInvariant := invOf_reset params UsableConfig []

/-- Settles O12. -/
theorem fatalIsPrecise : Obligations.FatalIsPrecise := by
  intro s t running stepped halts
  obtain ⟨x, rest, c, first, rfl⟩ := stepWith_halts running (stepWith_params ▸ stepped) halts
  rw [first]
  exact ⟨rfl, fatalCode_range c⟩

/-- Settles O13. -/
theorem commandErrorIsPrecise : Obligations.CommandErrorIsPrecise := by
  intro s t x rest running first stepped error
  obtain ⟨e, rfl⟩ := stepWith_fails running first (stepWith_params ▸ stepped) error
  exact ⟨rfl, (cerrCode_range e).2⟩

/-- Settles O21: a reading command completes from the state as it is. -/
theorem readingCommandsFrame : Obligations.ReadingCommandsFrame := by
  intro i s t reads ran
  rw [← execWith_params] at ran
  cases execWith_ends ran with
  | fatal c h => exact h ▸ rfl
  | cerr e h => exact h ▸ rfl
  | done s' did r d h =>
    obtain rfl := did.eq_of_readsOnly reads
    exact h ▸ rfl

/-- Settles O22. -/
theorem configurationFrame : Obligations.ConfigurationFrame := by
  intro i s t ran
  have clears (reg : Reg) (isWr : i = .cfgWr reg) (writable : reg.isWritable = true) : t.cerr = 0 → t.tv = false :=
    execCfgWr_clears_tv writable (isWr ▸ ran)
  rw [← execWith_params] at ran
  rcases execWith_config ran with ⟨reg, isWr, tcfg, tv⟩ | ⟨isInit, cfg, tcfg, tv⟩ | ⟨cfg, tcfg, tv⟩
  · exact ⟨fun _ => ⟨reg, isWr⟩, clears, fun changed => absurd tcfg changed,
      fun _ set => absurd (tv.symm.trans set) Bool.false_ne_true, fun _ _ => ⟨reg, isWr⟩, execWith_keeps_port ran⟩
  · exact ⟨fun changed => absurd cfg changed, clears, fun _ => isInit, fun _ _ => ⟨isInit, tcfg⟩,
      fun cleared _ => absurd (cleared.symm.trans tv) Bool.false_ne_true, execWith_keeps_port ran⟩
  · exact ⟨fun changed => absurd cfg changed, clears, fun changed => absurd tcfg changed,
      fun before set => absurd (before.symm.trans (tv.symm.trans set)) Bool.false_ne_true,
      fun cleared before => absurd (cleared.symm.trans (tv.trans before)) Bool.false_ne_true,
      execWith_keeps_port ran⟩

end Sys2Proof.Machine
end

section
/-! PROOF. The configuration and MCS families, and the checks that come first: STATUS (10_state.md R21), CFG_WR and
CFG_RD (40_config.md R73 to R76), MCS_INFO and BLOCK_PLAN (41_mcs_table.md R87 to R91), NOT_CONFIGURED (44_timing.md
R127), DIN_KIND and TOO_LARGE (60_exceptions.md R153). -/

namespace Sys2Proof.Machine

section
variable {P : Params} {s s' : State} {m : McsCode} {row : McsRow} {reg : Reg} {bits : Bits} {b : Burst}

/-! ### Endings in exact values -/

theorem complete_completesWith {d : Payload} {v0 v1 v2 v3 : Nat} (fits0 : v0 < 2 ^ 64) (fits1 : v1 < 2 ^ 64)
    (fits2 : v2 < 2 ^ 64) (fits3 : v3 < 2 ^ 64) :
    CompletesWith (complete (results v0 v1 v2 v3) d s') s' d v0 v1 v2 v3 := by
  refine ⟨⟨fits0, fits1, fits2, fits3⟩, ?_⟩
  rw [complete, results, toReg_of_lt fits0, toReg_of_lt fits1, toReg_of_lt fits2, toReg_of_lt fits3]

theorem raiseCErr_failsWith (e : CmdError) (s : State) : FailsWith (raiseCErr e s) s (cerrCode e) := rfl

theorem completesWith_of_eq {a a' : Answer} {d : Payload} {v0 v1 v2 v3 : Nat} (same : a = a')
    (completes : CompletesWith a' s' d v0 v1 v2 v3) : CompletesWith a s' d v0 v1 v2 v3 :=
  same ▸ completes

/-! ### This machine's parameters (00_scope.md R8) -/

/-- No operand exceeds the default limit. -/
theorem opA0_le_maxBurstBytes (s : State) : opA0 s ≤ params.maxBurstBytes := Nat.le_pred_of_lt s.a0.isLt

/-! ### The payload of a command (10_state.md R25) -/

theorem dinBits_eq_none_iff : dinBits s = none ↔ ∀ bits, s.din ≠ .bits bits := by
  cases h : s.din <;> simp [dinBits, h]

theorem dinBurst_eq_none_iff : dinBurst s = none ↔ ∀ b, s.din ≠ .burst b := by
  cases h : s.din <;> simp [dinBurst, h]

theorem serializeCmd_dinKind (notBurst : dinBurst s = none) : serializeCmd P s = raiseCErr .dinKind s := by
  simp only [serializeCmd, notBurst]

theorem deserializeCmd_dinKind (notBits : dinBits s = none) : deserializeCmd P s = raiseCErr .dinKind s := by
  simp only [deserializeCmd, notBits]

theorem segmentCmd_dinKind (notBits : dinBits s = none) : segmentCmd P s = raiseCErr .dinKind s := by
  simp only [segmentCmd, notBits]

theorem bqPushCmd_dinKind (notBits : dinBits s = none) : bqPushCmd P s = raiseCErr .dinKind s := by
  simp only [bqPushCmd, notBits]

/-! ### TOO_LARGE, after the checks before it (60_exceptions.md R153) -/

theorem serializeCmd_tooLarge (input : s.din = .burst b) (tooLarge : P.maxBurstBytes < burstBytes b) :
    serializeCmd P s = raiseCErr .tooLarge s := by
  simp only [serializeCmd, dinBurst_eq_some_iff.mpr input]
  exact if_pos tooLarge

theorem deserializeCmd_tooLarge (input : s.din = .bits bits) (whole : bits.length % 8 = 0)
    (tooLarge : 8 * P.maxBurstBytes < bits.length) : deserializeCmd P s = raiseCErr .tooLarge s := by
  simp only [deserializeCmd, dinBits_eq_some_iff.mpr input]
  rw [if_neg (not_not.mpr whole)]
  exact if_pos tooLarge

theorem segmentCmd_tooLarge (input : s.din = .bits bits) (size : badBlockSize P (opA0 s) = false)
    (tooLarge : 8 * P.maxBurstBytes < bits.length) : segmentCmd P s = raiseCErr .tooLarge s := by
  simp only [segmentCmd, dinBits_eq_some_iff.mpr input]
  rw [if_neg (by simp [size])]
  exact if_pos tooLarge

/-! ### The checks of class M (44_timing.md R127) -/

theorem withMcs_of_row (selected : mcsRow P m = some row) (k : McsRow → Answer) : withMcs P m s k = k row := by
  rw [withMcs, selected]

theorem withTiming_of_row (selected : mcsRow P m = some row) (valid : s.tv = true) (k : McsRow → Answer) :
    withTiming P m s k = k row := by
  rw [withTiming, withMcs_of_row selected, if_pos valid]

theorem exists_mcsRow (named : m ≠ .code7) : ∃ row, mcsRow P m = some row :=
  Option.ne_none_iff_exists'.mp (mt mcsRow_eq_none_iff.mp named)

theorem withTiming_of_tv_false (named : m ≠ .code7) (invalid : s.tv = false) (k : McsRow → Answer) :
    withTiming P m s k = raiseFatal .notConfigured s := by
  obtain ⟨row, selected⟩ := exists_mcsRow (P := P) named
  rw [withTiming, withMcs_of_row selected, if_neg (by simp [invalid])]

/-! ### STATUS and CFG_RD -/

theorem statusWord_toNat (s : State) :
    (statusWord s).toNat = s.halted.toNat + 2 * s.tv.toNat + 256 * s.cerr.toNat + 65536 * s.fcause.toNat := by
  simp only [statusWord, append_toNat, BitVec.toNat_ofNat, BitVec.toNat_ofBool]
  omega

theorem cfgRdCmd_completesWith {v : Nat} (reads : readReg P reg s = v) (fits : v < 2 ^ 64) :
    CompletesWith (cfgRdCmd P reg s) s .none v 0 0 0 := by
  rw [cfgRdCmd, reads, if_neg fits.not_ge]
  exact complete_completesWith fits (by decide) (by decide) (by decide)

theorem toNat_lt_of_le {n : Nat} (v : BitVec n) (narrow : n ≤ 64) : v.toNat < 2 ^ 64 :=
  v.isLt.trans_le (Nat.pow_le_pow_right (by decide) narrow)

/-! ### MCS_INFO -/

/-- `BPS` is one division of whole numbers (44_timing.md R123). -/
theorem bitsPerSymbol_eq_div (row : McsRow) :
    bitsPerSymbol row = row.bps * carriers * row.rateNum / row.rateDen := by
  rw [bitsPerSymbol, floorNat_eq_natFloor, codeRate, ← mul_div_assoc, ← Nat.floor_div_eq_div (K := Rat)]
  push_cast
  rfl

theorem mcsInfoCmd_completesWith (legal : P.Legal) (selected : mcsRow P m = some row) :
    CompletesWith (mcsInfoCmd P m s) s .none row.bps (row.rateNum * 256 + row.rateDen) row.payloadBytes
      row.codedBytes := by
  have rowLegal := mcsRow_legal legal selected
  obtain ⟨numSmall, denSmall⟩ := rowLegal.rate_bytes
  have bps := rowLegal.bps_range.2
  have payload := rowLegal.payload_range.2
  have coded := rowLegal.coded_range.2
  have packed : row.rateNum <<< 8 ||| row.rateDen = row.rateNum * 256 + row.rateDen := by
    rw [← Nat.shiftLeft_add_eq_or_of_lt denSmall, Nat.shiftLeft_eq]
  rw [mcsInfoCmd, withMcs_of_row selected, packed]
  exact complete_completesWith (by omega) (by omega) (by omega) (by omega)

end

/-- Settles O20. -/
theorem statusWordLayout : Obligations.StatusWordLayout := statusWord_toNat

/-- Settles O24, register by register of the list. -/
theorem cfgWrWritesTheRegister : Obligations.CfgWrWritesTheRegister := by
  intro s
  have written {reg : Reg} {w : Nat} {c : Cfg} (width : writeWidth reg = some w)
      (value : writeCfg reg (opA0 s) s.cfg = c) (fits : s.a0.toNat < 2 ^ w) :
      CompletesWith (exec (.cfgWr reg) s) { s with cfg := c, tv := false } .none 0 0 0 0 :=
    value ▸ completesWith_of_eq (execCfgWr_of_fits width fits)
      (complete_completesWith (by decide) (by decide) (by decide) (by decide))
  simp only [List.forall_mem_cons, List.not_mem_nil, false_implies, implies_true, and_true]
  exact ⟨written rfl (congrArg (fun v => { s.cfg with bw := v })
      ((BitVec.ofNat_toNat 32 s.a0).trans (BitVec.setWidth_eq s.a0))),
    written rfl (congrArg (fun v => { s.cfg with fft := v }) (BitVec.ofNat_toNat 16 s.a0)),
    written rfl (congrArg (fun v => { s.cfg with gnum := v }) (BitVec.ofNat_toNat 16 s.a0)),
    written rfl (congrArg (fun v => { s.cfg with gden := v }) (BitVec.ofNat_toNat 16 s.a0)),
    written rfl (congrArg (fun v => { s.cfg with frameCode := v }) (BitVec.ofNat_toNat 8 s.a0))⟩

/-- Settles O25. -/
theorem cfgWrRefuses : Obligations.CfgWrRefuses := by
  intro s
  have tooWide {reg : Reg} {w : Nat} (width : writeWidth reg = some w) (tooWide : 2 ^ w ≤ s.a0.toNat) :
      FailsWith (exec (.cfgWr reg) s) s 0x08 :=
    (execCfgWr_of_tooWide width tooWide).trans (raiseCErr_failsWith .operandRange s)
  simp only [List.forall_mem_cons, List.not_mem_nil, false_implies, implies_true, and_true]
  exact ⟨⟨tooWide rfl, tooWide rfl, tooWide rfl⟩, tooWide rfl,
    fun reg readOnly => (execCfgWr_of_readOnly readOnly).trans (raiseFatal_haltsWith .illegalCommand s)⟩

/-- Settles O26: each of these registers reads a value the statement names, and all but a long queue's level fit. -/
theorem cfgRdReadsStoredRegisters : Obligations.CfgRdReadsStoredRegisters := by
  intro s
  have stored {reg : Reg} {n : Nat} {v : BitVec n} (reads : readReg params reg s = v.toNat) (narrow : n ≤ 64) :
      CompletesWith (exec (.cfgRd reg) s) s .none v.toNat 0 0 0 :=
    cfgRdCmd_completesWith reads (toNat_lt_of_le v narrow)
  have status : CompletesWith (exec (.cfgRd .status) s) s .none (statusWord s).toNat 0 0 0 := stored rfl (by decide)
  have invalid (value : Derived → Nat) (tv : s.tv = false) : readDerived params s value = 0 := by
    rw [readDerived, if_neg (by simp [tv])]
  simp only [List.forall_mem_cons, List.not_mem_nil, false_implies, implies_true, and_true]
  refine ⟨⟨stored rfl (by decide), stored rfl (by decide), stored rfl (by decide), stored rfl (by decide),
    stored rfl (by decide), statusWord_toNat s ▸ status⟩, fun short => cfgRdCmd_completesWith rfl short,
    fun long => (if_pos long).trans (raiseCErr_failsWith .resultRange s), fun tv => ?_⟩
  have derived {reg : Reg} {value : Derived → Nat} (reads : readReg params reg s = readDerived params s value) :
      CompletesWith (exec (.cfgRd reg) s) s .none 0 0 0 0 :=
    cfgRdCmd_completesWith (reads.trans (invalid value tv)) (by decide)
  exact ⟨derived rfl, derived rfl, derived rfl, derived rfl, derived rfl, derived rfl, derived rfl, derived rfl,
    derived rfl, derived rfl, derived rfl⟩

/-- Settles O28, row by row of R82. -/
theorem mcsInfoReturnsTheRow : Obligations.McsInfoReturnsTheRow := by
  intro s
  have returned {m : McsCode} {row : McsRow} {perSymbol : Nat} (selected : mcsRow params m = some row)
      (carried : row.bps * carriers * row.rateNum / row.rateDen = perSymbol) :
      CompletesWith (exec (.mcsInfo m) s) s .none row.bps (row.rateNum * 256 + row.rateDen) row.payloadBytes
        row.codedBytes ∧ ∃ row, mcsRow params m = some row ∧ bitsPerSymbol row = perSymbol :=
    ⟨mcsInfoCmd_completesWith params_legal selected, row, selected, (bitsPerSymbol_eq_div row).trans carried⟩
  simp only [List.forall_mem_cons, List.not_mem_nil, false_implies, implies_true, and_true]
  exact ⟨returned (row := defaultMcsTable[0]) rfl rfl, returned (row := defaultMcsTable[1]) rfl rfl,
    returned (row := defaultMcsTable[2]) rfl rfl, returned (row := defaultMcsTable[3]) rfl rfl,
    returned (row := defaultMcsTable[4]) rfl rfl, returned (row := defaultMcsTable[5]) rfl rfl,
    returned (row := defaultMcsTable[6]) rfl rfl⟩

/-- Settles O29: the planned count is the ceiling, so the padding is what the blocks exceed the bits by. -/
theorem blockPlanIsExact : Obligations.BlockPlanIsExact := by
  intro s m row selected
  have rowLegal := mcsRow_legal params_legal selected
  have pos := payloadBits_pos rowLegal
  have size := (payloadBits_range rowLegal).2
  have count := ceilDiv_payloadBits_lt rowLegal s.a0
  have enough := le_ceilDiv_mul (8 * s.a0.toNat) pos
  have padding := paddingBits_lt (8 * s.a0.toNat) pos
  have operand := s.a0.isLt
  refine ⟨ceilDiv (8 * s.a0.toNat) (payloadBits row), _,
    completesWith_of_eq (blockPlanCmd_eq_complete params_legal selected (opA0_le_maxBurstBytes s))
      (complete_completesWith (by omega) (by exact count.trans (by decide)) (padding.trans (by omega))
        (by rw [opA0]; omega)), enough, rfl, ?_, (Nat.add_sub_of_le enough).symm, padding, ?_⟩
  · rw [ceilDiv_eq_natCeil _ pos, payloadBits]
    push_cast
    rw [mul_comm]
  · exact Nat.mod_eq_zero_of_dvd (Nat.dvd_sub ((dvd_mul_right 8 _).mul_left _) (dvd_mul_right 8 _))

/-- Settles O15. -/
theorem timingNeedsInit : Obligations.TimingNeedsInit := by
  intro s m named invalid
  have halts (k : McsRow → Answer) : HaltsWith (withTiming params m s k) s 0x06 :=
    withTiming_of_tv_false named invalid k ▸ raiseFatal_haltsWith .notConfigured s
  simp only [List.forall_mem_cons, List.not_mem_nil, false_implies, implies_true, and_true]
  exact ⟨halts _, halts _, halts _, halts _, halts _⟩

/-- Settles O16. -/
theorem wrongPayloadKindFails : Obligations.WrongPayloadKindFails := by
  intro s
  refine ⟨fun notBurst => ?_, fun notBits => ?_⟩
  · rw [← dinBurst_eq_none_iff] at notBurst
    exact (serializeCmd_dinKind (P := params) notBurst).trans (raiseCErr_failsWith .dinKind s)
  · rw [← dinBits_eq_none_iff] at notBits
    simp only [List.forall_mem_cons, List.not_mem_nil, false_implies, implies_true, and_true]
    exact ⟨(deserializeCmd_dinKind (P := params) notBits).trans (raiseCErr_failsWith .dinKind s),
      (segmentCmd_dinKind (P := params) notBits).trans (raiseCErr_failsWith .dinKind s),
      (bqPushCmd_dinKind (P := params) notBits).trans (raiseCErr_failsWith .dinKind s)⟩

/-- Settles O17: the checks before TOO_LARGE pass. -/
theorem oversizedBurstFails : Obligations.OversizedBurstFails := by
  refine ⟨fun s b input tooLarge => ?_, fun s bits input whole tooLarge => ?_,
    fun s bits input pos small tooLarge => ?_⟩
  · exact (serializeCmd_tooLarge (P := params) input tooLarge).trans (raiseCErr_failsWith .tooLarge s)
  · exact (deserializeCmd_tooLarge (P := params) input whole tooLarge).trans (raiseCErr_failsWith .tooLarge s)
  · have size : badBlockSize params (opA0 s) = false := badBlockSize_eq_false_iff.mpr ⟨pos, small⟩
    exact (segmentCmd_tooLarge (P := params) input size tooLarge).trans (raiseCErr_failsWith .tooLarge s)

end Sys2Proof.Machine
end

section
/-! PROOF. The bit codec (42_bit_codec.md R93 to R104; 30_encoding.md R64 to R68): the length field, one turn of the
scan, the scan packet by packet, and the two commands. -/

namespace Sys2Proof.Machine

section
variable {P : Params} {s : State} {hi : Nat} {buf rest : List Byte} {p : Packet} {b : Burst} {bits : Bits}

/-! ### Headers -/

theorem lengthField_eq (hi : Nat) (b1 b2 : Byte) : lengthField hi b1 b2 = b1.toNat % 2 ^ hi * 256 + b2.toNat := by
  rw [lengthField, ← Nat.shiftLeft_add_eq_or_of_lt b2.isLt, Nat.shiftLeft_eq]

/-- A header depends only on what follows it in the buffer. -/
theorem readHeader_append (front buf : List Byte) (pos : Nat) :
    readHeader hi (front ++ buf) (front.length + pos) = readHeader hi buf pos := by
  have byte (i : Nat) : byteAt (front ++ buf) (front.length + i) = byteAt buf i := by
    rw [byteAt, List.getD_append_right _ _ _ _ (Nat.le_add_right _ _), Nat.add_sub_cancel_left, byteAt]
  simp only [readHeader, Nat.add_assoc, byte, List.length_append, gt_iff_lt, Nat.add_lt_add_iff_left]

theorem readHeader_control (control : headerType (byteAt buf 0) = true) : readHeader hi buf 0 = .packet 6 := by
  rw [readHeader, if_pos control, ctrlFrameBytes]

theorem readHeader_short (data : headerType (byteAt buf 0) = false) (short : buf.length < 3) :
    readHeader hi buf 0 = .truncated := by
  rw [readHeader, if_neg (by simp [data]), if_pos (by omega)]

theorem readHeader_data (data : headerType (byteAt buf 0) = false) (long : 3 ≤ buf.length) :
    readHeader hi buf 0 = if packetLength hi buf = 0 then .padding else .packet (packetLength hi buf) := by
  rw [readHeader, if_neg (by simp [data]), if_neg (by omega)]
  rfl

/-- Every packet has at least one byte, so every turn of the scan goes on (R97). -/
theorem one_le_of_readHeader_packet {pos len : Nat} (header : readHeader hi buf pos = .packet len) : 1 ≤ len := by
  unfold readHeader at header
  simp only at header
  split at header
  · cases header
    decide
  · split at header
    · cases header
    · split at header
      · cases header
      · cases header
        exact Nat.one_le_iff_ne_zero.mpr ‹_›

/-! ### One turn of the scan -/

theorem scanLoop_past_end {pos : Nat} (ended : buf.length ≤ pos) (fuel : Nat) (pkts : Burst) :
    scanLoop hi buf fuel pos pkts = .ok pkts pos false := by
  cases fuel with
  | zero => rfl
  | succ fuel => rw [scanLoop, if_neg ended.not_gt]

/-- Everything one turn can do (R97). -/
theorem scanLoop_succ_cases (hi : Nat) (buf : List Byte) (fuel pos : Nat) (pkts : Burst) :
    (buf.length ≤ pos ∧ scanLoop hi buf (fuel + 1) pos pkts = .ok pkts pos false) ∨
    (pos < buf.length ∧
      ((readHeader hi buf pos = .truncated ∧ scanLoop hi buf (fuel + 1) pos pkts = .err .deserHdrTrunc) ∨
      (readHeader hi buf pos = .padding ∧ scanLoop hi buf (fuel + 1) pos pkts = .ok pkts pos true) ∨
      ∃ len, readHeader hi buf pos = .packet len ∧
        ((buf.length < pos + len ∧ scanLoop hi buf (fuel + 1) pos pkts = .err .deserOverrun) ∨
        (pos + len ≤ buf.length ∧ scanLoop hi buf (fuel + 1) pos pkts =
          scanLoop hi buf fuel (pos + len) (pkts ++ [(buf.drop pos).take len]))))) := by
  rcases Nat.lt_or_ge pos buf.length with before | ended
  · refine .inr ⟨before, ?_⟩
    rw [scanLoop, if_pos before]
    cases header : readHeader hi buf pos with
    | truncated => exact .inl ⟨rfl, rfl⟩
    | padding => exact .inr (.inl ⟨rfl, rfl⟩)
    | packet len =>
      refine .inr (.inr ⟨len, rfl, ?_⟩)
      rcases Nat.lt_or_ge buf.length (pos + len) with beyond | within
      · exact .inl ⟨beyond, if_pos beyond⟩
      · exact .inr ⟨within, if_neg within.not_gt⟩
  · exact .inl ⟨ended, scanLoop_past_end ended _ _⟩

/-- Fuel for the bytes that are left is enough. -/
theorem scanLoop_eq_of_enough_fuel {fuel more pos : Nat} {pkts : Burst} (enough : buf.length ≤ pos + fuel)
    (le : fuel ≤ more) : scanLoop hi buf more pos pkts = scanLoop hi buf fuel pos pkts := by
  induction fuel generalizing more pos pkts with
  | zero => exact (scanLoop_past_end enough more pkts).trans (scanLoop_past_end enough 0 pkts).symm
  | succ fuel ih =>
    obtain ⟨more, rfl⟩ := Nat.exists_eq_succ_of_ne_zero (Nat.ne_of_gt (Nat.lt_of_lt_of_le (Nat.succ_pos _) le))
    rw [scanLoop, scanLoop]
    split
    · cases header : readHeader hi buf pos with
      | truncated => rfl
      | padding => rfl
      | packet len =>
        have pos := one_le_of_readHeader_packet header
        simp only
        split
        · rfl
        · exact ih (by omega) (by omega)
    · rfl

/-! ### A scan inside a larger one -/

/-- A scan of what follows some packets, seen from the start of those packets. -/
def afterPackets (front : Burst) (bytes : Nat) : ScanResult → ScanResult
  | .ok pkts pos padded => .ok (front ++ pkts) (bytes + pos) padded
  | .err e => .err e

theorem prependPacket_eq_afterPackets {n : Nat} {p : Packet} (size : p.length = n) (r : ScanResult) :
    prependPacket p r = afterPackets [p] n r := by
  subst size
  cases r <;> rfl

theorem scanLoop_append (front buf : List Byte) (before : Burst) (fuel pos : Nat) (pkts : Burst) :
    scanLoop hi (front ++ buf) fuel (front.length + pos) (before ++ pkts) =
      afterPackets before front.length (scanLoop hi buf fuel pos pkts) := by
  induction fuel generalizing pos pkts with
  | zero => rfl
  | succ fuel ih =>
    rw [scanLoop, scanLoop, readHeader_append]
    simp only [List.length_append, Nat.add_lt_add_iff_left]
    split
    · cases readHeader hi buf pos with
      | truncated => rfl
      | padding => rfl
      | packet len =>
        have bytes : (front ++ buf).drop (front.length + pos) = buf.drop pos := List.drop_length_add_append ..
        simp only [Nat.add_assoc, gt_iff_lt, Nat.add_lt_add_iff_left, bytes, List.append_assoc]
        split
        · rfl
        · exact ih _ _
    · rfl

/-! ### The scan of a buffer, by its first header (R68, R97) -/

theorem scan_nil (hi : Nat) : scan hi [] = .ok [] 0 false := rfl

/-- The first turn of the scan of a buffer with a byte in it. -/
theorem scan_cases (hi : Nat) (some : buf ≠ []) :
    (readHeader hi buf 0 = .truncated ∧ scan hi buf = .err .deserHdrTrunc) ∨
    (readHeader hi buf 0 = .padding ∧ scan hi buf = .ok [] 0 true) ∨
    ∃ len, readHeader hi buf 0 = .packet len ∧
      ((buf.length < len ∧ scan hi buf = .err .deserOverrun) ∨
      (len ≤ buf.length ∧ scan hi buf = prependPacket (buf.take len) (scan hi (buf.drop len)))) := by
  obtain ⟨fuel, size⟩ := Nat.exists_eq_succ_of_ne_zero (mt List.length_eq_zero_iff.mp some)
  have start : scan hi buf = scanLoop hi buf (fuel + 1) 0 [] := by rw [scan, size]
  rw [start]
  rcases scanLoop_succ_cases hi buf fuel 0 [] with
    ⟨ended, -⟩ | ⟨-, truncated | padding | ⟨len, header, ⟨beyond, overrun⟩ | ⟨within, turn⟩⟩⟩
  · omega
  · exact .inl truncated
  · exact .inr (.inl padding)
  · exact .inr (.inr ⟨len, header, .inl ⟨by omega, overrun⟩⟩)
  · have taken : (buf.take len).length = len := List.length_take_of_le (by omega)
    have fuelled : scanLoop hi (buf.drop len) fuel 0 [] = scan hi (buf.drop len) :=
      scanLoop_eq_of_enough_fuel (by omega) (by have := one_le_of_readHeader_packet header; simp; omega)
    have inside := scanLoop_append (hi := hi) (buf.take len) (buf.drop len) [buf.take len] fuel 0 []
    rw [List.take_append_drop, taken, fuelled, ← prependPacket_eq_afterPackets taken] at inside
    refine .inr (.inr ⟨len, header, .inr ⟨by omega, turn.trans ?_⟩⟩)
    simpa using inside

theorem scan_of_packet {len : Nat} (some : buf ≠ []) (header : readHeader hi buf 0 = .packet len)
    (within : len ≤ buf.length) : scan hi buf = prependPacket (buf.take len) (scan hi (buf.drop len)) := by
  rcases scan_cases hi some with ⟨other, -⟩ | ⟨other, -⟩ | ⟨len', header', ⟨beyond, -⟩ | ⟨-, prepended⟩⟩
  · cases header.symm.trans other
  · cases header.symm.trans other
  · cases header.symm.trans header'
    omega
  · cases header.symm.trans header'
    exact prepended

theorem scan_of_overrun {len : Nat} (some : buf ≠ []) (header : readHeader hi buf 0 = .packet len)
    (beyond : buf.length < len) : scan hi buf = .err .deserOverrun := by
  rcases scan_cases hi some with ⟨other, -⟩ | ⟨other, -⟩ | ⟨len', header', ⟨-, overrun⟩ | ⟨within, -⟩⟩
  · cases header.symm.trans other
  · cases header.symm.trans other
  · exact overrun
  · cases header.symm.trans header'
    omega

theorem scan_of_padding (some : buf ≠ []) (header : readHeader hi buf 0 = .padding) : scan hi buf = .ok [] 0 true := by
  rcases scan_cases hi some with ⟨other, -⟩ | ⟨-, terminated⟩ | ⟨len, other, -⟩
  · cases header.symm.trans other
  · exact terminated
  · cases header.symm.trans other

theorem scan_of_truncated (some : buf ≠ []) (header : readHeader hi buf 0 = .truncated) :
    scan hi buf = .err .deserHdrTrunc := by
  rcases scan_cases hi some with ⟨-, failed⟩ | ⟨other, -⟩ | ⟨len, other, -⟩
  · exact failed
  · cases header.symm.trans other
  · cases header.symm.trans other

/-- A well-formed burst in front of a buffer is recovered whole, and the scan goes on behind it (R103, R104). -/
theorem scan_burst_append (wf : WellFormedBurst hi b) (rest : List Byte) :
    scan hi (b.flatten ++ rest) = afterPackets b b.flatten.length (scan hi rest) := by
  induction b with
  | nil => cases tail : scan hi rest <;> simp [afterPackets, tail]
  | cons p b ih =>
    obtain ⟨wfHead, wfTail⟩ := List.forall_mem_cons.mp wf
    have long := three_le_length_of_wellFormed wfHead
    have header : readHeader hi (p ++ (b.flatten ++ rest)) 0 = .packet p.length :=
      readHeader_of_wellFormed wfHead [] (b.flatten ++ rest)
    have some : p ++ (b.flatten ++ rest) ≠ [] := List.ne_nil_of_length_pos (by simp; omega)
    rw [List.flatten_cons, List.append_assoc, scan_of_packet some header (by simp), List.take_left, List.drop_left,
      ih wfTail]
    cases scan hi rest <;> simp [prependPacket, afterPackets, Nat.add_assoc]

/-! ### What a scan can answer (R97, R98) -/

theorem scanLoop_err {fuel pos : Nat} {pkts : Burst} {e : CmdError} (failed : scanLoop hi buf fuel pos pkts = .err e) :
    e = .deserHdrTrunc ∨ e = .deserOverrun := by
  induction fuel generalizing pos pkts with
  | zero => cases failed
  | succ fuel ih =>
    rcases scanLoop_succ_cases hi buf fuel pos pkts with
      ⟨-, turn⟩ | ⟨-, ⟨-, turn⟩ | ⟨-, turn⟩ | ⟨len, -, ⟨-, turn⟩ | ⟨-, turn⟩⟩⟩ <;> rw [turn] at failed
    · cases failed
    · exact .inl (ScanResult.err.inj failed).symm
    · cases failed
    · exact .inr (ScanResult.err.inj failed).symm
    · exact ih failed

/-- The packets are the buffer's bytes up to `pos`, none of them empty. -/
def Recovers (buf : List Byte) (pkts : Burst) (pos : Nat) : Prop :=
  pkts.flatten = buf.take pos ∧ pos ≤ buf.length ∧ ∀ p ∈ pkts, p ≠ []

theorem recovers_packet {pos len : Nat} {pkts : Burst} (so_far : Recovers buf pkts pos) (some : 1 ≤ len)
    (within : pos + len ≤ buf.length) : Recovers buf (pkts ++ [(buf.drop pos).take len]) (pos + len) := by
  obtain ⟨bytes, -, nonempty⟩ := so_far
  refine ⟨?_, within, List.forall_mem_append.mpr ⟨nonempty, List.forall_mem_singleton.mpr ?_⟩⟩
  · rw [List.flatten_append, List.flatten_singleton, bytes, List.take_add]
  · exact List.ne_nil_of_length_pos (by simp; omega)

theorem scanLoop_ok {fuel pos stop : Nat} {pkts out : Burst} {padded : Bool} (so_far : Recovers buf pkts pos)
    (enough : buf.length ≤ pos + fuel) (scanned : scanLoop hi buf fuel pos pkts = .ok out stop padded) :
    Recovers buf out stop ∧ (padded = false → stop = buf.length) := by
  induction fuel generalizing pos pkts with
  | zero =>
    obtain ⟨rfl, rfl, rfl⟩ := ScanResult.ok.inj scanned
    exact ⟨so_far, fun _ => le_antisymm so_far.2.1 enough⟩
  | succ fuel ih =>
    rcases scanLoop_succ_cases hi buf fuel pos pkts with
      ⟨ended, turn⟩ | ⟨-, ⟨-, turn⟩ | ⟨-, turn⟩ | ⟨len, header, ⟨-, turn⟩ | ⟨within, turn⟩⟩⟩ <;> rw [turn] at scanned
    · obtain ⟨rfl, rfl, rfl⟩ := ScanResult.ok.inj scanned
      exact ⟨so_far, fun _ => le_antisymm so_far.2.1 ended⟩
    · cases scanned
    · obtain ⟨rfl, rfl, rfl⟩ := ScanResult.ok.inj scanned
      exact ⟨so_far, nofun⟩
    · cases scanned
    · have some := one_le_of_readHeader_packet header
      exact ih (recovers_packet so_far some within) (by omega) scanned

theorem scan_ok {stop : Nat} {out : Burst} {padded : Bool} (scanned : scan hi buf = .ok out stop padded) :
    Recovers buf out stop ∧ (padded = false → stop = buf.length) :=
  scanLoop_ok ⟨rfl, Nat.zero_le _, fun _ member => absurd member List.not_mem_nil⟩ (by simp) scanned

theorem Recovers.length_le {pos : Nat} {pkts : Burst} (recovers : Recovers buf pkts pos) :
    pkts.length ≤ buf.length := by
  obtain ⟨bytes, within, nonempty⟩ := recovers
  have sizes : ∀ size ∈ pkts.map List.length, 1 ≤ size :=
    List.forall_mem_map.mpr fun p member => List.length_pos_iff.mpr (nonempty p member)
  calc pkts.length
    _ ≤ (pkts.map List.length).sum := by simpa using List.length_le_sum_of_one_le _ sizes
    _ = (buf.take pos).length := by rw [← bytes, List.length_flatten]
    _ ≤ buf.length := List.length_take_le' _ _

/-! ### DESERIALIZE -/

theorem bitsOf_replicate_zero (k : Nat) : bitsOf (List.replicate k 0) = zeros (8 * k) := by
  induction k with
  | zero => rfl
  | succ k ih =>
    rw [List.replicate_succ, bitsOf_cons, ih, Nat.mul_succ, Nat.add_comm, zeros, zeros, List.replicate_add]
    rfl

theorem bytesOf_length (whole : bits.length % 8 = 0) : (bytesOf bits).length = bits.length / 8 :=
  bytesOf_length_of_wholeBytes (Nat.mul_div_cancel' (Nat.dvd_of_mod_eq_zero whole)).symm

theorem deserializeCmd_unaligned (input : s.din = .bits bits) (unaligned : bits.length % 8 ≠ 0) :
    deserializeCmd P s = raiseCErr .deserUnaligned s := by
  simp only [deserializeCmd, dinBits_eq_some_iff.mpr input]
  exact if_pos unaligned

theorem deserializeCmd_of_scan_err {e : CmdError} (input : s.din = .bits bits) (whole : bits.length % 8 = 0)
    (within : bits.length ≤ 8 * P.maxBurstBytes) (failed : scan P.lenHiBits (bytesOf bits) = .err e) :
    deserializeCmd P s = raiseCErr e s := by
  simp only [deserializeCmd, dinBits_eq_some_iff.mpr input, failed]
  rw [if_neg (not_not.mpr whole), if_neg within.not_gt]

theorem deserializeCmd_of_scan_ok {pkts : Burst} {pos : Nat} {padded : Bool} (input : s.din = .bits bits)
    (whole : bits.length % 8 = 0) (within : bits.length ≤ 8 * P.maxBurstBytes)
    (scanned : scan P.lenHiBits (bytesOf bits) = .ok pkts pos padded) :
    deserializeCmd P s =
      complete (results pkts.length pos padded.toNat (bits.length / 8 - pos)) (.burst pkts) s := by
  simp only [deserializeCmd, dinBits_eq_some_iff.mpr input, scanned]
  rw [if_neg (not_not.mpr whole), if_neg within.not_gt, bytesOf_length whole]

theorem deserialize_completesWith {pkts : Burst} {pos : Nat} {padded : Bool} (input : s.din = .bits bits)
    (whole : bits.length % 8 = 0) (within : bits.length ≤ 8 * (2 ^ 32 - 1))
    (scanned : scan 3 (bytesOf bits) = .ok pkts pos padded) :
    CompletesWith (exec .deserialize s) s (.burst pkts) pkts.length pos padded.toNat (bits.length / 8 - pos) := by
  obtain ⟨recovers, -⟩ := scan_ok scanned
  have size := bytesOf_length whole
  have count := recovers.length_le
  have stop := recovers.2.1
  rw [size] at count stop
  have small : bits.length / 8 < 2 ^ 64 := ((Nat.div_le_self _ _).trans within).trans_lt (by decide)
  exact completesWith_of_eq (deserializeCmd_of_scan_ok (P := params) input whole within scanned)
    (complete_completesWith (count.trans_lt small) (stop.trans_lt small) (padded.toNat_lt.trans (by decide))
      ((Nat.sub_le _ _).trans_lt small))

end

/-- Settles O32. -/
theorem lengthFieldIsBigEndian : Obligations.LengthFieldIsBigEndian := by
  intro b1 b2
  have bit : b1.getLsbD 3 = decide (b1.toNat / 8 % 2 = 1) := Nat.testBit_eq_decide_div_mod_eq
  refine ⟨lengthField_eq 3 b1 b2, lengthField_eq 4 b1 b2, ?_⟩
  have halves : b1.toNat % 2 ^ 4 = b1.toNat % 2 ^ 3 + 8 * (b1.toNat / 8 % 2) := Nat.mod_mul
  rw [lengthField_eq, lengthField_eq, bit, halves]
  rcases Nat.mod_two_eq_zero_or_one (b1.toNat / 8) with clear | set
  · simp [clear]
  · rw [set]
    exact (congrArg (· + b2.toNat) (Nat.add_mul _ _ _)).trans (Nat.add_right_comm _ _ _)

/-- Settles O33. -/
theorem serializeEmitsTheBits : Obligations.SerializeEmitsTheBits := by
  intro s b input within
  have total : b.flatten.length = (b.map List.length).sum := List.length_flatten
  refine ⟨_, bitsOf b.flatten, serializeCmd_eq_complete input within, rfl, ?_, fun _ _ => bitsOf_getElem? _,
    toReg_toNat ?_, fun few => toReg_toNat few, toReg_toNat ?_, toReg_zero⟩
  · rw [bitsOf_length, total]
  · rw [burstBytes]
    omega
  · rw [burstBytes]
    omega

/-- Settles O34: the first header decides the first turn, and the rest is the scan of the rest. -/
theorem scanFollowsTheHeaders : Obligations.ScanFollowsTheHeaders := by
  intro hi
  refine ⟨scan_nil hi, fun buf some => ⟨fun control short => ?_, fun control long => ?_, fun data short => ?_,
    fun data long zero => ?_, fun data long beyond => ?_, fun data long pos within => ?_⟩⟩
  · exact scan_of_overrun some (readHeader_control control) short
  · exact scan_of_packet some (readHeader_control control) long
  · exact scan_of_truncated some (readHeader_short data short)
  · exact scan_of_padding some ((readHeader_data data long).trans (if_pos zero))
  · exact scan_of_overrun some ((readHeader_data data long).trans (if_neg (by omega))) beyond
  · exact scan_of_packet some ((readHeader_data data long).trans (if_neg (by omega))) within

/-- Settles O35. -/
theorem deserializeEmitsThePackets : Obligations.DeserializeEmitsThePackets := by
  intro s bits pkts pos padded input whole within scanned
  obtain ⟨⟨bytes, stop, nonempty⟩, reachesEnd⟩ := scan_ok scanned
  rw [bytesOf_length whole] at stop reachesEnd
  exact ⟨deserialize_completesWith input whole within scanned, bytes, stop, reachesEnd, nonempty⟩

/-- Settles O36. -/
theorem deserializeFailsWhole : Obligations.DeserializeFailsWhole := by
  intro s bits input
  refine ⟨fun unaligned => ?_, fun e whole within failed => ?_⟩
  · exact (deserializeCmd_unaligned (P := params) input unaligned).trans (raiseCErr_failsWith .deserUnaligned s)
  · have fails : FailsWith (exec .deserialize s) s (cerrCode e) :=
      (deserializeCmd_of_scan_err (P := params) input whole within failed).trans (raiseCErr_failsWith e s)
    rcases scanLoop_err failed with rfl | rfl
    · exact .inl ⟨rfl, fails⟩
    · exact .inr ⟨rfl, fails⟩

/-- Three zero bytes or more are a terminator (42_bit_codec.md R99). -/
theorem scan_zeros (k : Nat) : scan 3 (List.replicate (k + 3) 0) = .ok [] 0 true := by
  have long : 3 ≤ (List.replicate (k + 3) (0 : Byte)).length := by simp
  have data : headerType (byteAt (List.replicate (k + 3) 0) 0) = false := by
    simp [headerType, byteAt, List.replicate_succ]
  have zero : packetLength 3 (List.replicate (k + 3) 0) = 0 := by
    simp [packetLength, byteAt, List.replicate_succ, lengthField]
  exact scan_of_padding (List.cons_ne_nil _ _) ((readHeader_data data long).trans (if_pos zero))

/-- One or two zero bytes are a header cut short (42_bit_codec.md R104). -/
theorem scan_few_zeros {k : Nat} (few : k = 1 ∨ k = 2) : scan 3 (List.replicate k 0) = .err .deserHdrTrunc := by
  rcases few with rfl | rfl <;> exact scan_of_truncated (by decide) (readHeader_short rfl (by decide))

/-- Settles O38: behind the burst the scan sees the padding bytes alone. -/
theorem paddedRoundTrip : Obligations.PaddedRoundTrip := by
  intro s b k wf within input
  rw [← bitsOf_replicate_zero, ← bitsOf_append] at input
  have total : b.flatten.length = (b.map List.length).sum := List.length_flatten
  have size : (bitsOf (b.flatten ++ List.replicate k 0)).length = 8 * ((b.map List.length).sum + k) := by
    rw [bitsOf_length, List.length_append, total, List.length_replicate]
  have whole : (bitsOf (b.flatten ++ List.replicate k 0)).length % 8 = 0 :=
    size ▸ Nat.mul_mod_right _ _
  have fits : (bitsOf (b.flatten ++ List.replicate k 0)).length ≤ 8 * (2 ^ 32 - 1) :=
    size ▸ Nat.mul_le_mul_left 8 within
  have scanned : scan 3 (bytesOf (bitsOf (b.flatten ++ List.replicate k 0))) =
      afterPackets b (b.map List.length).sum (scan 3 (List.replicate k 0)) := by
    rw [bytesOf_bitsOf, scan_burst_append wf, total]
  have completes {padded : Bool} {discarded : Nat} (tail : scan 3 (List.replicate k 0) = .ok [] 0 padded)
      (rest : k = discarded) : CompletesWith (exec .deserialize s) s (.burst b) b.length (b.map List.length).sum
        padded.toNat discarded := by
    rw [tail, afterPackets, List.append_nil, Nat.add_zero] at scanned
    have left : 8 * ((b.map List.length).sum + k) / 8 - (b.map List.length).sum = discarded := by
      rw [Nat.mul_div_cancel_left _ (by decide), Nat.add_sub_cancel_left, rest]
    exact left ▸ size ▸ deserialize_completesWith input whole fits scanned
  refine ⟨fun three => ?_, fun few => ?_, fun none => ?_⟩
  · obtain ⟨more, rfl⟩ := Nat.exists_eq_add_of_le' three
    exact completes (scan_zeros more) rfl
  · rw [scan_few_zeros few] at scanned
    exact (deserializeCmd_of_scan_err (P := params) input whole fits scanned).trans
      (raiseCErr_failsWith .deserHdrTrunc s)
  · subst none
    exact completes (scan_nil 3) rfl

end Sys2Proof.Machine
end

section
/-! PROOF. The segmenter and its queue (43_segmenter.md R105 to R113): what SEGMENT, REASSEMBLE, BQ_PUSH and BQ_CLEAR
do, and every check that refuses. -/

namespace Sys2Proof.Machine

section
variable {P : Params} {s : State} {bits blk : Bits}

/-! ### Block sizes -/

theorem badBlockSize_eq_true_iff {bs : Nat} : badBlockSize P bs = true ↔ bs = 0 ∨ P.maxBlockBits < bs := by
  simp [badBlockSize]

theorem ceilDiv_le_self (a : Nat) {b : Nat} (pos : 0 < b) : ceilDiv a b ≤ a :=
  (ceilDiv_le_iff pos).mpr (Nat.le_mul_of_pos_right a pos)

theorem length_flatten_of_sizes {blocks : List Block} {bs : Nat} (sizes : ∀ blk ∈ blocks, blk.length = bs) :
    blocks.flatten.length = blocks.length * bs := by
  rw [List.length_flatten, List.map_congr_left sizes, List.map_const', List.sum_replicate, smul_eq_mul]

/-! ### The checks that refuse -/

theorem segmentCmd_badSize (input : s.din = .bits bits) (bad : badBlockSize P (opA0 s) = true) :
    segmentCmd P s = raiseCErr .segBadBlocksize s := by
  simp only [segmentCmd, dinBits_eq_some_iff.mpr input]
  exact if_pos bad

theorem segmentCmd_full (input : s.din = .bits bits) (size : badBlockSize P (opA0 s) = false)
    (within : bits.length ≤ 8 * P.maxBurstBytes) (full : P.qdepth < bqLevel s + ceilDiv bits.length (opA0 s)) :
    segmentCmd P s = raiseCErr .bqFull s := by
  simp only [segmentCmd, dinBits_eq_some_iff.mpr input]
  rw [if_neg (by simp [size]), if_neg within.not_gt]
  exact if_pos full

theorem reassembleCmd_badSize (bad : badBlockSize P (opA1 s) = true) :
    reassembleCmd P s = raiseCErr .segBadBlocksize s :=
  if_pos bad

theorem reassembleCmd_underflow (size : badBlockSize P (opA1 s) = false) (few : bqLevel s < opA0 s) :
    reassembleCmd P s = raiseCErr .bqUnderflow s := by
  simp only [reassembleCmd]
  rw [if_neg (by simp [size])]
  exact if_pos few

theorem reassembleCmd_mismatch (size : badBlockSize P (opA1 s) = false) (enough : opA0 s ≤ bqLevel s)
    (other : ∃ blk ∈ s.bq.take (opA0 s), blk.length ≠ opA1 s) : reassembleCmd P s = raiseCErr .bqSizeMismatch s := by
  obtain ⟨blk, member, differs⟩ := other
  have mismatch : (s.bq.take (opA0 s)).any (fun blk => blk.length != opA1 s) = true :=
    List.any_eq_true.mpr ⟨blk, member, bne_iff_ne.mpr differs⟩
  simp only [reassembleCmd]
  rw [if_neg (by simp [size]), if_neg enough.not_gt]
  exact if_pos mismatch

theorem bqPushCmd_badSize (input : s.din = .bits blk) (bad : badBlockSize P blk.length = true) :
    bqPushCmd P s = raiseCErr .segBadBlocksize s := by
  simp only [bqPushCmd, dinBits_eq_some_iff.mpr input]
  exact if_pos bad

theorem bqPushCmd_full (input : s.din = .bits blk) (size : badBlockSize P blk.length = false)
    (full : bqLevel s = P.qdepth) : bqPushCmd P s = raiseCErr .bqFull s := by
  simp only [bqPushCmd, dinBits_eq_some_iff.mpr input]
  rw [if_neg (by simp [size])]
  exact if_pos full

theorem bqPushCmd_eq_complete (input : s.din = .bits blk) (size : badBlockSize P blk.length = false)
    (room : bqLevel s ≠ P.qdepth) :
    bqPushCmd P s = complete (results (bqLevel (bqPushAll [blk] s)) 0 0 0) .none (bqPushAll [blk] s) := by
  simp only [bqPushCmd, dinBits_eq_some_iff.mpr input]
  rw [if_neg (by simp [size]), if_neg room]

end

/-- Settles O39: the blocks are those of the padded bits. -/
theorem segmentPushesTheBlocks : Obligations.SegmentPushesTheBlocks := by
  intro s bits input pos small within room
  have size : badBlockSize params (opA0 s) = false := badBlockSize_eq_false_iff.mpr ⟨pos, small⟩
  have count := paddedBlocks_length (bits := bits) (opA0 s)
  have countFits := ceilDiv_le_self bits.length (b := opA0 s) pos
  have paddingFits := (paddingBits_lt bits.length (bs := opA0 s) pos).trans_le small
  rw [← ceilDiv_eq_natCeil _ pos] at room ⊢
  refine ⟨_, paddedBlocks (opA0 s) bits, segmentCmd_eq_complete input size within room, rfl, count,
    length_of_mem_paddedBlocks pos, ?_, ?_, ?_, fun short => toReg_toNat short, toReg_zero⟩
  · rw [count]
    exact paddedBlocks_flatten pos
  · rw [count]
    exact toReg_toNat (by omega)
  · rw [count]
    exact toReg_toNat (paddingFits.trans (by decide))

/-- Settles O40. -/
theorem segmentRefuses : Obligations.SegmentRefuses := by
  intro s bits input
  refine ⟨fun bad => ?_, fun pos small within full => ?_⟩
  · exact (segmentCmd_badSize (P := params) input (badBlockSize_eq_true_iff.mpr bad)).trans
      (raiseCErr_failsWith .segBadBlocksize s)
  · rw [← ceilDiv_eq_natCeil _ pos] at full
    exact (segmentCmd_full (P := params) input (badBlockSize_eq_false_iff.mpr ⟨pos, small⟩) within full).trans
      (raiseCErr_failsWith .bqFull s)

/-- Settles O41. -/
theorem reassemblePopsTheBlocks : Obligations.ReassemblePopsTheBlocks := by
  intro s pos small enough sizes
  have size : badBlockSize params (opA1 s) = false := badBlockSize_eq_false_iff.mpr ⟨pos, small⟩
  have fits : s.a0.toNat * s.a1.toNat < 2 ^ 64 :=
    (Nat.mul_le_mul s.a0.isLt.le small).trans_lt (by decide)
  refine ⟨_, reassembleCmd_eq_complete size enough sizes, rfl, toReg_toNat fits, fun short => toReg_toNat short,
    toReg_zero, toReg_zero, ?_⟩
  rw [length_flatten_of_sizes sizes, List.length_take_of_le enough]

/-- Settles O42. -/
theorem reassembleRefuses : Obligations.ReassembleRefuses := by
  intro s
  refine ⟨fun bad => ?_, fun pos small => ?_⟩
  · exact (reassembleCmd_badSize (P := params) (badBlockSize_eq_true_iff.mpr bad)).trans
      (raiseCErr_failsWith .segBadBlocksize s)
  · have size : badBlockSize params (opA1 s) = false := badBlockSize_eq_false_iff.mpr ⟨pos, small⟩
    exact ⟨fun few => (reassembleCmd_underflow size few).trans (raiseCErr_failsWith .bqUnderflow s),
      fun enough other => (reassembleCmd_mismatch size enough other).trans (raiseCErr_failsWith .bqSizeMismatch s)⟩

/-- Settles O43. -/
theorem bqPushAppendsOneBlock : Obligations.BqPushAppendsOneBlock := by
  intro s blk input
  refine ⟨fun pos small room => ?_, fun bad => ?_, fun pos small full => ?_⟩
  · have size : badBlockSize params blk.length = false := badBlockSize_eq_false_iff.mpr ⟨pos, small⟩
    have level : bqLevel (bqPushAll [blk] s) = s.bq.length + 1 := List.length_append
    exact ⟨_, bqPushCmd_eq_complete input size room.ne, rfl, fun short => (toReg_toNat short).trans level, toReg_zero,
      toReg_zero, toReg_zero⟩
  · exact (bqPushCmd_badSize (P := params) input (badBlockSize_eq_true_iff.mpr bad)).trans
      (raiseCErr_failsWith .segBadBlocksize s)
  · exact (bqPushCmd_full (P := params) input (badBlockSize_eq_false_iff.mpr ⟨pos, small⟩) full).trans
      (raiseCErr_failsWith .bqFull s)

/-- Settles O44. -/
theorem bqClearEmptiesTheQueue : Obligations.BqClearEmptiesTheQueue :=
  fun _ => ⟨_, rfl, rfl, fun short => toReg_toNat short, toReg_zero, toReg_zero, toReg_zero⟩

end Sys2Proof.Machine
end

section
/-! PROOF. The timing family with the default tables (44_timing.md R119 to R139): the closed forms of the derived
quantities of a usable configuration, their bounds, and the commands. -/

namespace Sys2Proof.Machine

section
variable {P : Params} {c : Cfg} {s s' : State} {m : McsCode} {row : McsRow} {maxBlockBits : Nat}

/-! ### Closed forms (R119 to R122) -/

theorem keyIndex_eq (bw : Nat) : keyIndex bw =
    if bw % 1750000 = 0 then some 0 else if bw % 1500000 = 0 then some 1 else if bw % 1250000 = 0 then some 2
    else if bw % 2750000 = 0 then some 3 else if bw % 2000000 = 0 then some 4 else none := rfl

theorem getD_map_ite {p : Prop} [Decidable p] {i : Fin 5} {o : Option (Fin 5)} {f : Fin 5 → Rat} {q r : Rat}
    (here : f i = q) (next : ¬ p → (o.map f).getD 0 = r) :
    ((if p then some i else o).map f).getD 0 = if p then q else r := by
  split
  · exact here
  · exact next ‹_›

theorem sf_params (usable : UsableConfig c) : sf params c = factorOf c.bw.toNat := by
  have key := keyIndex_ne_none_iff.mpr usable.key
  rw [keyIndex_eq] at key
  rw [sf, samplingFactor, keyIndex_eq, factorOf]
  refine getD_map_ite rfl fun k0 => getD_map_ite rfl fun k1 => getD_map_ite rfl fun k2 => getD_map_ite rfl fun k3 => ?_
  rw [if_neg k0, if_neg k1, if_neg k2, if_neg k3] at key
  rw [if_pos (not_not.mp fun k4 => key (if_neg k4))]
  rfl

theorem fs_params (usable : UsableConfig c) : fs params c = samplingHz c := by
  rw [fs, sf_params usable, samplingHz]

theorem tb_params (usable : UsableConfig c) : tb params c = c.fft.toNat / samplingHz c := by
  rw [tb, spacing, fs_params usable, one_div_div]

theorem ts_params (usable : UsableConfig c) : ts params c = symbolSeconds c := by
  rw [ts, tg, tb_params usable, symbolSeconds, onePlusG, cpRatio]
  ring

theorem tf_params (usable : UsableConfig c) : tf params c = frameSeconds c.frameCode.toNat := by
  have defined : params.frameDur c.frameCode = some (frameSeconds c.frameCode.toNat) :=
    defaultFrameDur_of_le usable.code
  rw [tf, defined, Option.getD_some]

theorem toTicks_params (t : Rat) : toTicks params t = nanos t := by
  rw [toTicks, floorNat_eq_natFloor, nanos]
  rfl

/-! ### The derived registers (R76) -/

/-- The slots of a symbol do not depend on the sampling frequency (R122). -/
theorem symbolSeconds_div_slot (usable : UsableConfig c) :
    symbolSeconds c / (4 / samplingHz c) = onePlusG c * c.fft.toNat / 4 := by
  have hz := (samplingHz_pos usable).ne'
  rw [symbolSeconds]
  field_simp

theorem derived_params (usable : UsableConfig c) : derived params c = closedDerived c := by
  simp only [derived, closedDerived, toTicks_params, floorNat_eq_natFloor, spacing, tg, cpRatio, ps, sf_params usable,
    fs_params usable, tb_params usable, ts_params usable, tf_params usable, symbolSeconds_div_slot usable]

theorem acceptedConfig_of_usable (usable : UsableConfig c) : AcceptedConfig params c :=
  { usable with
    code := fun undefined => nomatch (defaultFrameDur_of_le usable.code).symm.trans undefined
    fits := derived_params usable ▸ closedDerived_fits usable }

/-! ### TIMING_INIT's fatals in their order (R126) -/

theorem timingInitCmd_outOfRange (range : configInRange s.cfg = false) :
    timingInitCmd P s = raiseFatal .illegalConfig s :=
  if_pos range

theorem timingInitCmd_noKey (range : configInRange s.cfg = true) (key : samplingFactor P s.cfg = none) :
    timingInitCmd P s = raiseFatal .badBandwidth s := by
  simp only [timingInitCmd]
  rw [if_neg (by simp [range])]
  exact if_pos key

theorem timingInitCmd_noFrame (range : configInRange s.cfg = true) (key : samplingFactor P s.cfg ≠ none)
    (code : P.frameDur s.cfg.frameCode = none) : timingInitCmd P s = raiseFatal .badFrameCode s := by
  simp only [timingInitCmd]
  rw [if_neg (by simp [range]), if_neg key]
  exact if_pos code

/-! ### Counts of blocks and symbols (R123, R124) -/

theorem bitsPerSymbol_le (legal : row.Legal maxBlockBits) : bitsPerSymbol row ≤ 1152 := by
  have bps := legal.bps_range.2
  have rate := legal.rate_upper
  rw [bitsPerSymbol_eq_div, carriers]
  refine Nat.div_le_of_le_mul ?_
  calc row.bps * 192 * row.rateNum
    _ ≤ 6 * 192 * row.rateNum := Nat.mul_le_mul_right _ (Nat.mul_le_mul_right _ bps)
    _ ≤ row.rateDen * 1152 := by omega

theorem codedBits_le (legal : row.Legal maxBlockBits) : codedBits row ≤ 12 * bitsPerSymbol row := by
  have coded := legal.coded_range.2
  have slowest := carriers_div_two_le_bitsPerSymbol legal
  rw [carriers] at slowest
  rw [codedBits]
  omega

theorem nrBlocks_eq_natCeil (legal : row.Legal maxBlockBits) (bytes : Nat) :
    nrBlocks row bytes = ⌈(8 * bytes : Rat) / (8 * row.payloadBytes : Rat)⌉₊ := by
  rw [nrBlocks, ceilDiv_eq_natCeil _ (payloadBits_pos legal), payloadBits]
  push_cast
  rfl

/-- A block holds more than one byte. -/
theorem nrBlocks_le (legal : row.Legal maxBlockBits) (bytes : Nat) : nrBlocks row bytes ≤ bytes := by
  have := (payloadBits_range legal).1
  refine (ceilDiv_le_iff (payloadBits_pos legal)).mpr ?_
  rw [Nat.mul_comm]
  exact Nat.mul_le_mul_left bytes (by omega)

/-- A block takes at most 12 symbols. -/
theorem nrSymbols_le (legal : row.Legal maxBlockBits) (bytes : Nat) : nrSymbols row bytes ≤ 12 * bytes := by
  have blocks := nrBlocks_le legal bytes
  have perBlock := codedBits_le legal
  refine (ceilDiv_le_iff (bitsPerSymbol_pos legal)).mpr ?_
  calc nrBlocks row bytes * codedBits row
    _ ≤ bytes * (12 * bitsPerSymbol row) := Nat.mul_le_mul blocks perBlock
    _ = 12 * bytes * bitsPerSymbol row := by ring

/-! ### What the timing commands do with a snapshot (R129 to R139) -/

theorem blockTimeCmd_of_row (selected : mcsRow P m = some row) (valid : s.tv = true) :
    blockTimeCmd P m s =
      if toTicks P (blockTime P s.tcfg row) ≥ 2 ^ 64 then raiseCErr .resultRange s
      else complete (results (toTicks P (blockTime P s.tcfg row)) 0 0 0) .none s :=
  withTiming_of_row selected valid _

theorem burstTimeCmd_of_row (selected : mcsRow P m = some row) (valid : s.tv = true)
    (within : opA0 s ≤ P.maxBurstBytes) :
    burstTimeCmd P m s =
      if toTicks P (burstTime P s.tcfg row (opA0 s)) + compTicks P ≥ 2 ^ 64 then raiseCErr .resultRange s
      else complete (results (toTicks P (burstTime P s.tcfg row (opA0 s)) + compTicks P) (nrSymbols row (opA0 s))
        (nrBlocks row (opA0 s)) 0) .none s :=
  (withTiming_of_row selected valid _).trans (if_neg within.not_gt)

theorem nrSymbolsCmd_of_row (selected : mcsRow P m = some row) (valid : s.tv = true)
    (within : opA0 s ≤ P.maxBurstBytes) :
    nrSymbolsCmd P m s = complete (results (nrSymbols row (opA0 s)) (nrBlocks row (opA0 s)) 0 0) .none s :=
  (withTiming_of_row selected valid _).trans (if_neg within.not_gt)

theorem params_compTicks : compTicks params = 3 := rfl

theorem burstTicks_lt (legal : row.Legal maxBlockBits) (usable : UsableConfig c) (bytes : Word) :
    nanos (nrSymbols row bytes.toNat * symbolSeconds c) < 2 ^ 63 := by
  have count : (nrSymbols row bytes.toNat : Rat) ≤ 12 * 2 ^ 32 :=
    mod_cast (nrSymbols_le legal bytes.toNat).trans (Nat.mul_le_mul_left 12 bytes.isLt.le)
  exact nanos_lt ((mul_le_mul count (symbolSeconds_bounds usable).2 (symbolSeconds_pos usable).le (by norm_num)).trans
    (by norm_num))

theorem exec_burstTime_completesWith (selected : mcsRow params m = some row) (valid : s.tv = true)
    (usable : UsableConfig s.tcfg) :
    CompletesWith (exec (.burstTime m) s) s .none
      (nanos (nrSymbols row s.a0.toNat * symbolSeconds s.tcfg) + 3) (nrSymbols row s.a0.toNat)
      (nrBlocks row s.a0.toNat) 0 := by
  have legal := mcsRow_legal params_legal selected
  have operand := s.a0.isLt
  have ticks := burstTicks_lt legal usable s.a0
  have symbols := nrSymbols_le legal s.a0.toNat
  have blocks := nrBlocks_le legal s.a0.toNat
  refine completesWith_of_eq (burstTimeCmd_of_row selected valid (opA0_le_maxBurstBytes s)) ?_
  rw [burstTime, ts_params usable, toTicks_params, params_compTicks, opA0, if_neg (by omega)]
  exact complete_completesWith (by omega) (by omega) (by omega) (by decide)

theorem exec_nrSymbols_completesWith (selected : mcsRow params m = some row) (valid : s.tv = true) :
    CompletesWith (exec (.nrSymbols m) s) s .none (nrSymbols row s.a0.toNat) (nrBlocks row s.a0.toNat) 0 0 := by
  have legal := mcsRow_legal params_legal selected
  have operand := s.a0.isLt
  have symbols := nrSymbols_le legal s.a0.toNat
  have blocks := nrBlocks_le legal s.a0.toNat
  exact completesWith_of_eq (nrSymbolsCmd_of_row selected valid (opA0_le_maxBurstBytes s))
    (complete_completesWith (by rw [opA0]; omega) (by rw [opA0]; omega) (by decide) (by decide))

/-! ### Two machines (70_reset_and_hazards.md R175) -/

/-- Both answers end with the same results, CERR and DOUT. -/
def SameEnding (a a' : Answer) : Prop :=
  ∃ t t' : State, a = .next t ∧ a' = .next t' ∧ t.r = t'.r ∧ t.cerr = t'.cerr ∧ t.dout = t'.dout

theorem sameEnding_complete (r : Results) (d : Payload) (s s' : State) :
    SameEnding (complete r d s) (complete r d s') :=
  ⟨_, _, rfl, rfl, rfl, rfl, rfl⟩

theorem sameEnding_raiseCErr (e : CmdError) (s s' : State) : SameEnding (raiseCErr e s) (raiseCErr e s') :=
  ⟨_, _, rfl, rfl, rfl, rfl, rfl⟩

theorem sameEnding_ite {p : Prop} [Decidable p] {a a' b b' : Answer} (ha : SameEnding a a') (hb : SameEnding b b') :
    SameEnding (if p then a else b) (if p then a' else b') := by
  split
  · exact ha
  · exact hb

end

/-- Settles O27, register by register of the list. -/
theorem cfgRdReadsDerivedRegisters : Obligations.CfgRdReadsDerivedRegisters := by
  intro s valid usable
  have fits := derivedFits_iff.mp (closedDerived_fits usable)
  have reads {reg : Reg} {value : Derived → Nat} (named : readReg params reg s = readDerived params s value)
      (listed : value (closedDerived s.tcfg) < 2 ^ 64) :
      CompletesWith (exec (.cfgRd reg) s) s .none (value (closedDerived s.tcfg)) 0 0 0 := by
    rw [readDerived, if_pos valid, derived_params usable] at named
    exact cfgRdCmd_completesWith named listed
  simp only [List.forall_mem_cons, List.not_mem_nil, false_implies, implies_true, and_true] at fits ⊢
  obtain ⟨sfNum, sfDen, fsHz, spacingHz, tbTicks, tgTicks, tsTicks, psTicks, psPerSym, frameTicks, symPerFrame⟩ := fits
  exact ⟨reads (value := Derived.sfNum) rfl sfNum, reads (value := Derived.sfDen) rfl sfDen,
    reads (value := Derived.fsHz) rfl fsHz, reads (value := Derived.spacingHz) rfl spacingHz,
    reads (value := Derived.tbTicks) rfl tbTicks, reads (value := Derived.tgTicks) rfl tgTicks,
    reads (value := Derived.tsTicks) rfl tsTicks, reads (value := Derived.psTicks) rfl psTicks,
    reads (value := Derived.psPerSym) rfl psPerSym, reads (value := Derived.frameTicks) rfl frameTicks,
    reads (value := Derived.symPerFrame) rfl symPerFrame⟩

/-- Settles O47. -/
theorem timingInitLatches : Obligations.TimingInitLatches := by
  intro s usable
  have fits := derivedFits_iff.mp (closedDerived_fits usable)
  refine completesWith_of_eq (timingInitCmd_of_accepted (acceptedConfig_of_usable usable)) ?_
  rw [derived_params usable]
  exact complete_completesWith (fits _ (by simp)) (fits _ (by simp)) (fits _ (by simp)) (fits _ (by simp))

/-- Settles O48. -/
theorem timingInitHalts : Obligations.TimingInitHalts := by
  intro s
  rw [← configInRange_eq_true_iff]
  refine ⟨fun outOfRange => ?_, fun range => ⟨fun noKey => ?_, fun key undefined => ?_⟩⟩
  · exact (timingInitCmd_outOfRange (P := params) (by simpa using outOfRange)).trans
      (raiseFatal_haltsWith .illegalConfig s)
  · have unmatched : samplingFactor params s.cfg = none :=
      not_not.mp (mt samplingFactor_ne_none_iff.mp fun ⟨k, listed, multiple⟩ => noKey k listed multiple)
    exact (timingInitCmd_noKey range unmatched).trans (raiseFatal_haltsWith .badBandwidth s)
  · exact (timingInitCmd_noFrame (P := params) range (samplingFactor_ne_none_iff.mpr key)
      (defaultFrameDur_of_lt undefined)).trans (raiseFatal_haltsWith .badFrameCode s)

/-- Settles O49. -/
theorem dataRateIsExact : Obligations.DataRateIsExact := by
  intro s m row selected valid usable
  have perSymbol := bitsPerSymbol_le (mcsRow_legal params_legal selected)
  have carried : (bitsPerSymbol row : Rat) ≤ 1152 := mod_cast perSymbol
  have slow : (bitsPerSymbol row : Rat) / symbolSeconds s.tcfg ≤ 1152 / (1 / 2 ^ 25) :=
    div_le_div₀ (by decide) carried (by norm_num) (symbolSeconds_bounds usable).1
  refine completesWith_of_eq (withTiming_of_row selected valid _) ?_
  rw [dataRate, ts_params usable, floorNat_eq_natFloor]
  exact complete_completesWith (natFloor_lt (slow.trans (by norm_num))) (by omega) (by decide) (by decide)

/-- Settles O50. -/
theorem blockTimeIsExact : Obligations.BlockTimeIsExact := by
  intro s m row selected valid usable
  have legal := mcsRow_legal params_legal selected
  have bpsPos : (0 : Rat) < bitsPerSymbol row := Nat.cast_pos.mpr (bitsPerSymbol_pos legal)
  have closed : blockTime params s.tcfg row =
      (8 * row.codedBytes : Rat) * symbolSeconds s.tcfg / bitsPerSymbol row := by
    rw [blockTime_eq, ts_params usable, codedBits]
    push_cast
    ring
  have perBlock : (8 * row.codedBytes : Rat) / bitsPerSymbol row ≤ 12 :=
    (div_le_iff₀ bpsPos).mpr (mod_cast codedBits_le legal)
  have short : (8 * row.codedBytes : Rat) * symbolSeconds s.tcfg / bitsPerSymbol row ≤ 12 * (1 / 512) := by
    rw [mul_div_right_comm]
    exact mul_le_mul perBlock (symbolSeconds_bounds usable).2 (symbolSeconds_pos usable).le (by decide)
  have ticks := nanos_lt (short.trans (by norm_num))
  refine completesWith_of_eq (blockTimeCmd_of_row selected valid) ?_
  rw [closed, toTicks_params, if_neg (by omega)]
  exact complete_completesWith (by omega) (by decide) (by decide) (by decide)

/-- Settles O51. -/
theorem burstTimeIsExact : Obligations.BurstTimeIsExact := by
  intro s m row selected valid usable
  have legal := mcsRow_legal params_legal selected
  refine ⟨nrBlocks row s.a0.toNat, nrSymbols row s.a0.toNat, nrBlocks_eq_natCeil legal _, ?_,
    exec_burstTime_completesWith selected valid usable⟩
  rw [nrSymbols_eq_natCeil legal, codedBits]
  push_cast
  rfl

/-- Settles O52. -/
theorem nrSymbolsIsExact : Obligations.NrSymbolsIsExact := by
  intro s m row selected valid
  have legal := mcsRow_legal params_legal selected
  refine ⟨nrBlocks row s.a0.toNat, nrSymbols row s.a0.toNat, nrBlocks_eq_natCeil legal _, ?_,
    exec_nrSymbols_completesWith selected valid⟩
  rw [nrSymbols_eq_natCeil legal, codedBits]
  push_cast
  rfl

/-- Settles O53: both commands compute the one count. -/
theorem nrSymbolsIsBurstTimeR1 : Obligations.NrSymbolsIsBurstTimeR1 := by
  refine ⟨fun s m named valid usable => ?_, fun s s' t t' m named valid valid' same ran ran' => ?_⟩
  · obtain ⟨row, selected⟩ := exists_mcsRow (P := params) named
    exact ⟨_, _, (exec_nrSymbols_completesWith selected valid).2,
      (exec_burstTime_completesWith selected valid usable).2, rfl, rfl, rfl⟩
  · obtain ⟨row, selected⟩ := exists_mcsRow (P := params) named
    rw [(exec_nrSymbols_completesWith selected valid).2] at ran
    rw [(exec_nrSymbols_completesWith selected valid').2, ← same] at ran'
    cases ran
    cases ran'
    rfl

/-- Settles O54. -/
theorem nrBytesIsExact : Obligations.NrBytesIsExact := by
  intro s m row selected valid
  have perSymbol := bitsPerSymbol_le (mcsRow_legal params_legal selected)
  have fits : nrBytes row s.a0.toNat < 2 ^ 64 :=
    (Nat.div_le_self _ _).trans_lt ((Nat.mul_le_mul s.a0.isLt.le perSymbol).trans_lt (by decide))
  rw [← nrBytes_eq_natFloor]
  exact completesWith_of_eq (withTiming_of_row selected valid _)
    (complete_completesWith fits (by decide) (by decide) (by decide))

/-- Settles O58: none of the three halts, and what each answers is a function of the snapshot and the operand. -/
theorem transmitterReceiverAgree : Obligations.TransmitterReceiverAgree := by
  intro s s' m named valid valid' snapshot operand
  obtain ⟨row, selected⟩ := exists_mcsRow (P := params) named
  have within := opA0_le_maxBurstBytes s
  have within' := opA0_le_maxBurstBytes s'
  have same : opA0 s' = opA0 s := congrArg BitVec.toNat operand.symm
  have plan : SameEnding (blockPlanCmd params m s) (blockPlanCmd params m s') := by
    rw [blockPlanCmd_eq_complete params_legal selected within, blockPlanCmd_eq_complete params_legal selected within',
      same]
    exact sameEnding_complete _ _ _ _
  have block : SameEnding (blockTimeCmd params m s) (blockTimeCmd params m s') := by
    rw [blockTimeCmd_of_row selected valid, blockTimeCmd_of_row selected valid', ← snapshot]
    exact sameEnding_ite (sameEnding_raiseCErr _ _ _) (sameEnding_complete _ _ _ _)
  have burst : SameEnding (burstTimeCmd params m s) (burstTimeCmd params m s') := by
    rw [burstTimeCmd_of_row selected valid within, burstTimeCmd_of_row selected valid' within', ← snapshot, same]
    exact sameEnding_ite (sameEnding_raiseCErr _ _ _) (sameEnding_complete _ _ _ _)
  simp only [List.forall_mem_cons, List.not_mem_nil, false_implies, implies_true, and_true]
  exact ⟨plan, block, burst⟩

end Sys2Proof.Machine
end
